-- ==== Sys2Proof/Word.lean ====
section
/-! DEFINITION. The two word types of the Intel 8080 (spec/00_scope.md R4, R7): 8-bit data and 16-bit addresses. -/

namespace Sys2Proof

/-- `bits8`: a data byte, a port number (R4, R7). -/
abbrev Byte := BitVec 8

/-- `bits16`: an address, a register pair, SP or PC (R4, R7). -/
abbrev Word := BitVec 16

end Sys2Proof
end

