-- ==== Sys2Proof/Syntax.lean ====
section
/-! DEFINITION. The instruction set: one constructor per row of spec/opcode_table.json (30_encoding.md R88, R100, R107), with the
operands already taken out of the bytes. -/

namespace Sys2Proof

/-- The seven 8-bit registers (10_state.md R21). Code 110 is `M`, which is no register and has instructions of its own. -/
inductive Reg where
  | b | c | d | e | h | l | a
  deriving DecidableEq, Repr

/-- The four pairs of the field `RP` (10_state.md R23). Code 11 is SP here; PUSH PSW and POP PSW are instructions of their own. -/
inductive RegPair where
  | bc | de | hl | sp
  deriving DecidableEq, Repr

/-- The eight conditions of the field `CCC` (10_state.md R32). -/
inductive Cond where
  | nz | z | nc | c | po | pe | p | m
  deriving DecidableEq, Repr

/-- The instructions. -/
inductive Instr where
  -- 8-bit transfers (40_transfer8.md)
  /-- `MOV r1,r2` (R110). -/
  | movRR (dst src : Reg)
  /-- `MOV r,M` (R111). -/
  | movRM (dst : Reg)
  /-- `MOV M,r` (R112). -/
  | movMR (src : Reg)
  /-- `MVI r,d8` (R113). -/
  | mviR (dst : Reg) (imm : Byte)
  /-- `MVI M,d8` (R114). -/
  | mviM (imm : Byte)
  /-- `LDA adr` (R115). -/
  | lda (adr : Word)
  /-- `STA adr` (R116). -/
  | sta (adr : Word)
  /-- `LDAX rp`, rp BC or DE (R118). -/
  | ldax (pair : RegPair)
  /-- `STAX rp`, rp BC or DE (R119). -/
  | stax (pair : RegPair)
  -- 16-bit transfers (41_transfer16.md)
  /-- `LHLD adr` (R120). -/
  | lhld (adr : Word)
  /-- `SHLD adr` (R121). -/
  | shld (adr : Word)
  /-- `LXI rp,d16` (R122). -/
  | lxi (pair : RegPair) (imm : Word)
  /-- `PUSH rp`, rp BC, DE or HL (R124). -/
  | pushRp (pair : RegPair)
  /-- `PUSH PSW` (R125). -/
  | pushPsw
  /-- `POP rp`, rp BC, DE or HL (R126). -/
  | popRp (pair : RegPair)
  /-- `POP PSW` (R127). -/
  | popPsw
  /-- `XTHL` (R128). -/
  | xthl
  /-- `SPHL` (R129). -/
  | sphl
  /-- `PCHL` (R130). -/
  | pchl
  /-- `XCHG` (R131). -/
  | xchg
  -- 8-bit arithmetic and logic (42_arith8.md, 43_logic_cmp_daa.md)
  /-- `ADD r` (R143). -/
  | addR (src : Reg)
  /-- `ADD M` (R144). -/
  | addM
  /-- `ADC r` (R145). -/
  | adcR (src : Reg)
  /-- `ADC M` (R146). -/
  | adcM
  /-- `SUB r` (R147). -/
  | subR (src : Reg)
  /-- `SUB M` (R148). -/
  | subM
  /-- `SBB r` (R149). -/
  | sbbR (src : Reg)
  /-- `SBB M` (R150). -/
  | sbbM
  /-- `ANA r` (R171). -/
  | anaR (src : Reg)
  /-- `ANA M` (R172). -/
  | anaM
  /-- `XRA r` (R173). -/
  | xraR (src : Reg)
  /-- `XRA M` (R174). -/
  | xraM
  /-- `ORA r` (R175). -/
  | oraR (src : Reg)
  /-- `ORA M` (R176). -/
  | oraM
  /-- `CMP r` (R177). -/
  | cmpR (src : Reg)
  /-- `CMP M` (R178). -/
  | cmpM
  /-- `INR r` (R151). -/
  | inrR (dst : Reg)
  /-- `INR M` (R152). -/
  | inrM
  /-- `DCR r` (R153). -/
  | dcrR (dst : Reg)
  /-- `DCR M` (R154). -/
  | dcrM
  /-- `ADI d8` (R155). -/
  | adi (imm : Byte)
  /-- `ACI d8` (R156). -/
  | aci (imm : Byte)
  /-- `SUI d8` (R157). -/
  | sui (imm : Byte)
  /-- `SBI d8` (R158). -/
  | sbi (imm : Byte)
  /-- `ANI d8` (R179). -/
  | ani (imm : Byte)
  /-- `XRI d8` (R180). -/
  | xri (imm : Byte)
  /-- `ORI d8` (R181). -/
  | ori (imm : Byte)
  /-- `CPI d8` (R182). -/
  | cpi (imm : Byte)
  /-- `DAA` (R188). -/
  | daa
  -- 16-bit arithmetic (44_arith16.md)
  /-- `DAD rp` (R190). -/
  | dad (pair : RegPair)
  /-- `INX rp` (R191). -/
  | inx (pair : RegPair)
  /-- `DCX rp` (R192). -/
  | dcx (pair : RegPair)
  -- Jumps, calls, returns (45_control.md)
  /-- `JMP adr` (R201). -/
  | jmp (adr : Word)
  /-- `CALL adr` (R202). -/
  | call (adr : Word)
  /-- `RET` (R203). -/
  | ret
  /-- `JNZ adr` (R204). -/
  | jnz (adr : Word)
  /-- `JZ adr` (R205). -/
  | jz (adr : Word)
  /-- `JNC adr` (R206). -/
  | jnc (adr : Word)
  /-- `JC adr` (R207). -/
  | jc (adr : Word)
  /-- `JPO adr` (R208). -/
  | jpo (adr : Word)
  /-- `JPE adr` (R209). -/
  | jpe (adr : Word)
  /-- `JP adr` (R210). -/
  | jp (adr : Word)
  /-- `JM adr` (R211). -/
  | jm (adr : Word)
  /-- `CNZ adr` (R212). -/
  | cnz (adr : Word)
  /-- `CZ adr` (R213). -/
  | cz (adr : Word)
  /-- `CNC adr` (R214). -/
  | cnc (adr : Word)
  /-- `CC adr` (R215). -/
  | cc (adr : Word)
  /-- `CPO adr` (R216). -/
  | cpo (adr : Word)
  /-- `CPE adr` (R217). -/
  | cpe (adr : Word)
  /-- `CP adr` (R218). -/
  | cp (adr : Word)
  /-- `CM adr` (R219). -/
  | cm (adr : Word)
  /-- `RNZ` (R220). -/
  | rnz
  /-- `RZ` (R221). -/
  | rz
  /-- `RNC` (R222). -/
  | rnc
  /-- `RC` (R223). -/
  | rc
  /-- `RPO` (R224). -/
  | rpo
  /-- `RPE` (R225). -/
  | rpe
  /-- `RP` (R226). -/
  | rp
  /-- `RM` (R227). -/
  | rm
  -- Rotations (46_rotate.md)
  /-- `RLC` (R230). -/
  | rlc
  /-- `RRC` (R231). -/
  | rrc
  /-- `RAL` (R232). -/
  | ral
  /-- `RAR` (R233). -/
  | rar
  -- Other instructions (47_other.md)
  /-- `IN port` (R240). -/
  | inPort (port : Byte)
  /-- `OUT port` (R241). -/
  | outPort (port : Byte)
  /-- `STC` (R242). -/
  | stc
  /-- `CMC` (R243). -/
  | cmc
  /-- `CMA` (R244). -/
  | cma
  /-- `NOP` (R245). -/
  | nop
  /-- `HLT` (R246). -/
  | hlt
  /-- `DI` (R247). -/
  | di
  /-- `EI` (R248). -/
  | ei
  /-- `RST n` (R249). -/
  | rst (n : BitVec 3)
  -- The twelve undefined first bytes (30_encoding.md R97); those that alias JMP and CALL carry the two operand bytes of the alias
  /-- first byte 0x08. -/
  | undef08
  /-- first byte 0x10. -/
  | undef10
  /-- first byte 0x18. -/
  | undef18
  /-- first byte 0x20. -/
  | undef20
  /-- first byte 0x28. -/
  | undef28
  /-- first byte 0x30. -/
  | undef30
  /-- first byte 0x38. -/
  | undef38
  /-- first byte 0xCB. -/
  | undefCB (adr : Word)
  /-- first byte 0xD9. -/
  | undefD9
  /-- first byte 0xDD. -/
  | undefDD (adr : Word)
  /-- first byte 0xED. -/
  | undefED (adr : Word)
  /-- first byte 0xFD. -/
  | undefFD (adr : Word)
  deriving DecidableEq, Repr

end Sys2Proof
end

