-- ==== Sys2Proof/WellFormed.lean ====
section
/-! DEFINITION. Which terms of `Instr` are instructions: the restricted fields of spec/30_encoding.md R99. -/

namespace Sys2Proof

/-- LDAX and STAX take BC or DE only (R99 a). -/
def RegPair.addressesMemory : RegPair → Bool
  | .bc | .de => true
  | .hl | .sp => false

/-- PUSH and POP take BC, DE or HL: code 11 is PSW there, never SP (R99 b). -/
def RegPair.stackable : RegPair → Bool
  | .bc | .de | .hl => true
  | .sp => false

/-- The term is an instruction of the 8080. Only four constructors can be ill-formed; every other operand is legal at every
value (R86, R99 c to g). -/
def Instr.wellFormed : Instr → Bool
  | .movRR _ _ => true
  | .movRM _ => true
  | .movMR _ => true
  | .mviR _ _ => true
  | .mviM _ => true
  | .lda _ => true
  | .sta _ => true
  | .ldax pair => pair.addressesMemory
  | .stax pair => pair.addressesMemory
  | .lhld _ => true
  | .shld _ => true
  | .lxi _ _ => true
  | .pushRp pair => pair.stackable
  | .pushPsw => true
  | .popRp pair => pair.stackable
  | .popPsw => true
  | .xthl => true
  | .sphl => true
  | .pchl => true
  | .xchg => true
  | .addR _ => true
  | .addM => true
  | .adcR _ => true
  | .adcM => true
  | .subR _ => true
  | .subM => true
  | .sbbR _ => true
  | .sbbM => true
  | .anaR _ => true
  | .anaM => true
  | .xraR _ => true
  | .xraM => true
  | .oraR _ => true
  | .oraM => true
  | .cmpR _ => true
  | .cmpM => true
  | .inrR _ => true
  | .inrM => true
  | .dcrR _ => true
  | .dcrM => true
  | .adi _ => true
  | .aci _ => true
  | .sui _ => true
  | .sbi _ => true
  | .ani _ => true
  | .xri _ => true
  | .ori _ => true
  | .cpi _ => true
  | .daa => true
  | .dad _ => true
  | .inx _ => true
  | .dcx _ => true
  | .jmp _ => true
  | .call _ => true
  | .ret => true
  | .jnz _ => true
  | .jz _ => true
  | .jnc _ => true
  | .jc _ => true
  | .jpo _ => true
  | .jpe _ => true
  | .jp _ => true
  | .jm _ => true
  | .cnz _ => true
  | .cz _ => true
  | .cnc _ => true
  | .cc _ => true
  | .cpo _ => true
  | .cpe _ => true
  | .cp _ => true
  | .cm _ => true
  | .rnz => true
  | .rz => true
  | .rnc => true
  | .rc => true
  | .rpo => true
  | .rpe => true
  | .rp => true
  | .rm => true
  | .rlc => true
  | .rrc => true
  | .ral => true
  | .rar => true
  | .inPort _ => true
  | .outPort _ => true
  | .stc => true
  | .cmc => true
  | .cma => true
  | .nop => true
  | .hlt => true
  | .di => true
  | .ei => true
  | .rst _ => true
  | .undef08 => true
  | .undef10 => true
  | .undef18 => true
  | .undef20 => true
  | .undef28 => true
  | .undef30 => true
  | .undef38 => true
  | .undefCB _ => true
  | .undefD9 => true
  | .undefDD _ => true
  | .undefED _ => true
  | .undefFD _ => true

end Sys2Proof
end

