-- ==== Sys2Proof/Decode.lean ====
section
/-! DEFINITION. From bytes to instructions and back: the field codes (spec/10_state.md R21, R23), the opcode table row by row
(spec/30_encoding.md R82 to R88, R97 to R100; spec/opcode_table.json), the decoder and, after it, the encoder. -/

namespace Sys2Proof

/-! ### Bytes of a 16-bit value (20_memory.md R53, 00_scope.md R7) -/

/-- `hi(w)`: bits 15 to 8. -/
def hiByte (w : Word) : Byte := w.extractLsb' 8 8

/-- `lo(w)`: bits 7 to 0. -/
def loByte (w : Word) : Byte := w.extractLsb' 0 8

/-- `h ++ l`: the first byte is the more significant. -/
def joinBytes (h l : Byte) : Word := h ++ l

/-! ### Field codes -/

/-- The register with a 3-bit code (R21); code 110 is `M` and names no register. -/
def regAt (code : BitVec 3) : Option Reg :=
  match code.toNat with
  | 0 => some .b
  | 1 => some .c
  | 2 => some .d
  | 3 => some .e
  | 4 => some .h
  | 5 => some .l
  | 7 => some .a
  | _ => none

/-- The 3-bit code of a register (R21). -/
def Reg.code : Reg → BitVec 3
  | .b => 0b000
  | .c => 0b001
  | .d => 0b010
  | .e => 0b011
  | .h => 0b100
  | .l => 0b101
  | .a => 0b111

/-- The pair with a 2-bit code (R23). -/
def pairAt (code : BitVec 2) : RegPair :=
  match code.toNat with
  | 0 => .bc
  | 1 => .de
  | 2 => .hl
  | _ => .sp

/-- The 2-bit code of a pair (R23). -/
def RegPair.code : RegPair → BitVec 2
  | .bc => 0b00
  | .de => 0b01
  | .hl => 0b10
  | .sp => 0b11

/-- Bits 5 to 3: the fields `DDD`, `CCC` and `NNN` (30_encoding.md R82). -/
def dddField (op : Byte) : BitVec 3 := op.extractLsb' 3 3

/-- Bits 2 to 0: the field `SSS` (R82). -/
def sssField (op : Byte) : BitVec 3 := op.extractLsb' 0 3

/-- Bits 5 to 4: the field `RP` (R82). -/
def rpField (op : Byte) : BitVec 2 := op.extractLsb' 4 2

/-! ### The opcode table -/

/-- One row of spec/opcode_table.json: the first byte has the row's pattern under the row's mask, the instruction has `len` bytes,
and `build` reads the operands from the first, second and third byte (`none`: the field value belongs to another row, R98, R99). -/
structure Row where
  mask : Byte
  pattern : Byte
  len : Nat
  build : Byte → Byte → Byte → Option Instr

/-- The rows of: 8-bit transfers (40_transfer8.md). -/
def rowsTransfer8 : List Row :=
  [ { mask := 0xC0, pattern := 0x40, len := 1, build := fun op _ _ => (regAt (dddField op)).bind fun dst => (regAt (sssField op)).map fun src => .movRR dst src }
  , { mask := 0xC7, pattern := 0x46, len := 1, build := fun op _ _ => (regAt (dddField op)).map fun dst => .movRM dst }
  , { mask := 0xF8, pattern := 0x70, len := 1, build := fun op _ _ => (regAt (sssField op)).map fun src => .movMR src }
  , { mask := 0xC7, pattern := 0x06, len := 2, build := fun op b2 _ => (regAt (dddField op)).map fun dst => .mviR dst b2 }
  , { mask := 0xFF, pattern := 0x36, len := 2, build := fun _ b2 _ => some (.mviM b2) }
  , { mask := 0xFF, pattern := 0x3A, len := 3, build := fun _ b2 b3 => some (.lda (joinBytes b3 b2)) }
  , { mask := 0xFF, pattern := 0x32, len := 3, build := fun _ b2 b3 => some (.sta (joinBytes b3 b2)) }
  , { mask := 0xEF, pattern := 0x0A, len := 1, build := fun op _ _ => some (.ldax (pairAt (rpField op))) }
  , { mask := 0xEF, pattern := 0x02, len := 1, build := fun op _ _ => some (.stax (pairAt (rpField op))) } ]

/-- The rows of: 16-bit transfers (41_transfer16.md). -/
def rowsTransfer16 : List Row :=
  [ { mask := 0xFF, pattern := 0x2A, len := 3, build := fun _ b2 b3 => some (.lhld (joinBytes b3 b2)) }
  , { mask := 0xFF, pattern := 0x22, len := 3, build := fun _ b2 b3 => some (.shld (joinBytes b3 b2)) }
  , { mask := 0xCF, pattern := 0x01, len := 3, build := fun op b2 b3 => some (.lxi (pairAt (rpField op)) (joinBytes b3 b2)) }
  , { mask := 0xCF, pattern := 0xC5, len := 1, build := fun op _ _ => if pairAt (rpField op) = .sp then none else some (.pushRp (pairAt (rpField op))) }
  , { mask := 0xFF, pattern := 0xF5, len := 1, build := fun _ _ _ => some .pushPsw }
  , { mask := 0xCF, pattern := 0xC1, len := 1, build := fun op _ _ => if pairAt (rpField op) = .sp then none else some (.popRp (pairAt (rpField op))) }
  , { mask := 0xFF, pattern := 0xF1, len := 1, build := fun _ _ _ => some .popPsw }
  , { mask := 0xFF, pattern := 0xE3, len := 1, build := fun _ _ _ => some .xthl }
  , { mask := 0xFF, pattern := 0xF9, len := 1, build := fun _ _ _ => some .sphl }
  , { mask := 0xFF, pattern := 0xE9, len := 1, build := fun _ _ _ => some .pchl }
  , { mask := 0xFF, pattern := 0xEB, len := 1, build := fun _ _ _ => some .xchg } ]

/-- The rows of: 8-bit arithmetic and logic (42_arith8.md, 43_logic_cmp_daa.md). -/
def rowsArith8 : List Row :=
  [ { mask := 0xF8, pattern := 0x80, len := 1, build := fun op _ _ => (regAt (sssField op)).map fun src => .addR src }
  , { mask := 0xFF, pattern := 0x86, len := 1, build := fun _ _ _ => some .addM }
  , { mask := 0xF8, pattern := 0x88, len := 1, build := fun op _ _ => (regAt (sssField op)).map fun src => .adcR src }
  , { mask := 0xFF, pattern := 0x8E, len := 1, build := fun _ _ _ => some .adcM }
  , { mask := 0xF8, pattern := 0x90, len := 1, build := fun op _ _ => (regAt (sssField op)).map fun src => .subR src }
  , { mask := 0xFF, pattern := 0x96, len := 1, build := fun _ _ _ => some .subM }
  , { mask := 0xF8, pattern := 0x98, len := 1, build := fun op _ _ => (regAt (sssField op)).map fun src => .sbbR src }
  , { mask := 0xFF, pattern := 0x9E, len := 1, build := fun _ _ _ => some .sbbM }
  , { mask := 0xF8, pattern := 0xA0, len := 1, build := fun op _ _ => (regAt (sssField op)).map fun src => .anaR src }
  , { mask := 0xFF, pattern := 0xA6, len := 1, build := fun _ _ _ => some .anaM }
  , { mask := 0xF8, pattern := 0xA8, len := 1, build := fun op _ _ => (regAt (sssField op)).map fun src => .xraR src }
  , { mask := 0xFF, pattern := 0xAE, len := 1, build := fun _ _ _ => some .xraM }
  , { mask := 0xF8, pattern := 0xB0, len := 1, build := fun op _ _ => (regAt (sssField op)).map fun src => .oraR src }
  , { mask := 0xFF, pattern := 0xB6, len := 1, build := fun _ _ _ => some .oraM }
  , { mask := 0xF8, pattern := 0xB8, len := 1, build := fun op _ _ => (regAt (sssField op)).map fun src => .cmpR src }
  , { mask := 0xFF, pattern := 0xBE, len := 1, build := fun _ _ _ => some .cmpM }
  , { mask := 0xC7, pattern := 0x04, len := 1, build := fun op _ _ => (regAt (dddField op)).map fun dst => .inrR dst }
  , { mask := 0xFF, pattern := 0x34, len := 1, build := fun _ _ _ => some .inrM }
  , { mask := 0xC7, pattern := 0x05, len := 1, build := fun op _ _ => (regAt (dddField op)).map fun dst => .dcrR dst }
  , { mask := 0xFF, pattern := 0x35, len := 1, build := fun _ _ _ => some .dcrM }
  , { mask := 0xFF, pattern := 0xC6, len := 2, build := fun _ b2 _ => some (.adi b2) }
  , { mask := 0xFF, pattern := 0xCE, len := 2, build := fun _ b2 _ => some (.aci b2) }
  , { mask := 0xFF, pattern := 0xD6, len := 2, build := fun _ b2 _ => some (.sui b2) }
  , { mask := 0xFF, pattern := 0xDE, len := 2, build := fun _ b2 _ => some (.sbi b2) }
  , { mask := 0xFF, pattern := 0xE6, len := 2, build := fun _ b2 _ => some (.ani b2) }
  , { mask := 0xFF, pattern := 0xEE, len := 2, build := fun _ b2 _ => some (.xri b2) }
  , { mask := 0xFF, pattern := 0xF6, len := 2, build := fun _ b2 _ => some (.ori b2) }
  , { mask := 0xFF, pattern := 0xFE, len := 2, build := fun _ b2 _ => some (.cpi b2) }
  , { mask := 0xFF, pattern := 0x27, len := 1, build := fun _ _ _ => some .daa } ]

/-- The rows of: 16-bit arithmetic (44_arith16.md). -/
def rowsArith16 : List Row :=
  [ { mask := 0xCF, pattern := 0x09, len := 1, build := fun op _ _ => some (.dad (pairAt (rpField op))) }
  , { mask := 0xCF, pattern := 0x03, len := 1, build := fun op _ _ => some (.inx (pairAt (rpField op))) }
  , { mask := 0xCF, pattern := 0x0B, len := 1, build := fun op _ _ => some (.dcx (pairAt (rpField op))) } ]

/-- The rows of: Jumps, calls, returns (45_control.md). -/
def rowsControl : List Row :=
  [ { mask := 0xFF, pattern := 0xC3, len := 3, build := fun _ b2 b3 => some (.jmp (joinBytes b3 b2)) }
  , { mask := 0xFF, pattern := 0xCD, len := 3, build := fun _ b2 b3 => some (.call (joinBytes b3 b2)) }
  , { mask := 0xFF, pattern := 0xC9, len := 1, build := fun _ _ _ => some .ret }
  , { mask := 0xFF, pattern := 0xC2, len := 3, build := fun _ b2 b3 => some (.jnz (joinBytes b3 b2)) }
  , { mask := 0xFF, pattern := 0xCA, len := 3, build := fun _ b2 b3 => some (.jz (joinBytes b3 b2)) }
  , { mask := 0xFF, pattern := 0xD2, len := 3, build := fun _ b2 b3 => some (.jnc (joinBytes b3 b2)) }
  , { mask := 0xFF, pattern := 0xDA, len := 3, build := fun _ b2 b3 => some (.jc (joinBytes b3 b2)) }
  , { mask := 0xFF, pattern := 0xE2, len := 3, build := fun _ b2 b3 => some (.jpo (joinBytes b3 b2)) }
  , { mask := 0xFF, pattern := 0xEA, len := 3, build := fun _ b2 b3 => some (.jpe (joinBytes b3 b2)) }
  , { mask := 0xFF, pattern := 0xF2, len := 3, build := fun _ b2 b3 => some (.jp (joinBytes b3 b2)) }
  , { mask := 0xFF, pattern := 0xFA, len := 3, build := fun _ b2 b3 => some (.jm (joinBytes b3 b2)) }
  , { mask := 0xFF, pattern := 0xC4, len := 3, build := fun _ b2 b3 => some (.cnz (joinBytes b3 b2)) }
  , { mask := 0xFF, pattern := 0xCC, len := 3, build := fun _ b2 b3 => some (.cz (joinBytes b3 b2)) }
  , { mask := 0xFF, pattern := 0xD4, len := 3, build := fun _ b2 b3 => some (.cnc (joinBytes b3 b2)) }
  , { mask := 0xFF, pattern := 0xDC, len := 3, build := fun _ b2 b3 => some (.cc (joinBytes b3 b2)) }
  , { mask := 0xFF, pattern := 0xE4, len := 3, build := fun _ b2 b3 => some (.cpo (joinBytes b3 b2)) }
  , { mask := 0xFF, pattern := 0xEC, len := 3, build := fun _ b2 b3 => some (.cpe (joinBytes b3 b2)) }
  , { mask := 0xFF, pattern := 0xF4, len := 3, build := fun _ b2 b3 => some (.cp (joinBytes b3 b2)) }
  , { mask := 0xFF, pattern := 0xFC, len := 3, build := fun _ b2 b3 => some (.cm (joinBytes b3 b2)) }
  , { mask := 0xFF, pattern := 0xC0, len := 1, build := fun _ _ _ => some .rnz }
  , { mask := 0xFF, pattern := 0xC8, len := 1, build := fun _ _ _ => some .rz }
  , { mask := 0xFF, pattern := 0xD0, len := 1, build := fun _ _ _ => some .rnc }
  , { mask := 0xFF, pattern := 0xD8, len := 1, build := fun _ _ _ => some .rc }
  , { mask := 0xFF, pattern := 0xE0, len := 1, build := fun _ _ _ => some .rpo }
  , { mask := 0xFF, pattern := 0xE8, len := 1, build := fun _ _ _ => some .rpe }
  , { mask := 0xFF, pattern := 0xF0, len := 1, build := fun _ _ _ => some .rp }
  , { mask := 0xFF, pattern := 0xF8, len := 1, build := fun _ _ _ => some .rm } ]

/-- The rows of: Rotations (46_rotate.md). -/
def rowsRotate : List Row :=
  [ { mask := 0xFF, pattern := 0x07, len := 1, build := fun _ _ _ => some .rlc }
  , { mask := 0xFF, pattern := 0x0F, len := 1, build := fun _ _ _ => some .rrc }
  , { mask := 0xFF, pattern := 0x17, len := 1, build := fun _ _ _ => some .ral }
  , { mask := 0xFF, pattern := 0x1F, len := 1, build := fun _ _ _ => some .rar } ]

/-- The rows of: Other instructions (47_other.md). -/
def rowsOther : List Row :=
  [ { mask := 0xFF, pattern := 0xDB, len := 2, build := fun _ b2 _ => some (.inPort b2) }
  , { mask := 0xFF, pattern := 0xD3, len := 2, build := fun _ b2 _ => some (.outPort b2) }
  , { mask := 0xFF, pattern := 0x37, len := 1, build := fun _ _ _ => some .stc }
  , { mask := 0xFF, pattern := 0x3F, len := 1, build := fun _ _ _ => some .cmc }
  , { mask := 0xFF, pattern := 0x2F, len := 1, build := fun _ _ _ => some .cma }
  , { mask := 0xFF, pattern := 0x00, len := 1, build := fun _ _ _ => some .nop }
  , { mask := 0xFF, pattern := 0x76, len := 1, build := fun _ _ _ => some .hlt }
  , { mask := 0xFF, pattern := 0xF3, len := 1, build := fun _ _ _ => some .di }
  , { mask := 0xFF, pattern := 0xFB, len := 1, build := fun _ _ _ => some .ei }
  , { mask := 0xC7, pattern := 0xC7, len := 1, build := fun op _ _ => some (.rst (dddField op)) } ]

/-- The rows of: The twelve undefined first bytes (30_encoding.md R97); those that alias JMP and CALL carry the two operand bytes of the alias. -/
def rowsUndefined : List Row :=
  [ { mask := 0xFF, pattern := 0x08, len := 1, build := fun _ _ _ => some .undef08 }
  , { mask := 0xFF, pattern := 0x10, len := 1, build := fun _ _ _ => some .undef10 }
  , { mask := 0xFF, pattern := 0x18, len := 1, build := fun _ _ _ => some .undef18 }
  , { mask := 0xFF, pattern := 0x20, len := 1, build := fun _ _ _ => some .undef20 }
  , { mask := 0xFF, pattern := 0x28, len := 1, build := fun _ _ _ => some .undef28 }
  , { mask := 0xFF, pattern := 0x30, len := 1, build := fun _ _ _ => some .undef30 }
  , { mask := 0xFF, pattern := 0x38, len := 1, build := fun _ _ _ => some .undef38 }
  , { mask := 0xFF, pattern := 0xCB, len := 3, build := fun _ b2 b3 => some (.undefCB (joinBytes b3 b2)) }
  , { mask := 0xFF, pattern := 0xD9, len := 1, build := fun _ _ _ => some .undefD9 }
  , { mask := 0xFF, pattern := 0xDD, len := 3, build := fun _ b2 b3 => some (.undefDD (joinBytes b3 b2)) }
  , { mask := 0xFF, pattern := 0xED, len := 3, build := fun _ b2 b3 => some (.undefED (joinBytes b3 b2)) }
  , { mask := 0xFF, pattern := 0xFD, len := 3, build := fun _ b2 b3 => some (.undefFD (joinBytes b3 b2)) } ]

/-- The whole table, in its own order. The order decides nothing: each first byte belongs to exactly one row (R100). The rows of the
undefined first bytes have the length of their alias (R97). -/
def opcodeRows : List Row :=
  rowsTransfer8 ++ rowsTransfer16 ++ rowsArith8 ++ rowsArith16 ++ rowsControl ++ rowsRotate ++ rowsOther ++ rowsUndefined

/-- The row has the first byte `op`. -/
def Row.has (r : Row) (op : Byte) : Bool := op &&& r.mask == r.pattern && (r.build op 0 0).isSome

/-- The row a first byte belongs to. -/
def rowOf (op : Byte) : Option Row := opcodeRows.find? (fun r => r.has op)

/-- The length in bytes that the first byte gives the instruction (R80, R81). -/
def opLength (op : Byte) : Nat :=
  match rowOf op with
  | some r => r.len
  | none => 1

/-- Why bytes are no instruction. -/
inductive DecodeError where
  /-- There is no first byte. -/
  | empty
  /-- The operand bytes that the first byte asks for are missing. -/
  | truncated (op : Byte)
  /-- No row has the first byte: never the case (R100), kept so that the decoder needs no proof to be total. -/
  | noRow (op : Byte)
  deriving DecidableEq, Repr

/-- Decodes the instruction at the front of the bytes (at increasing addresses) and gives the rest. Operand bytes are never looked
at to decide anything (R80). -/
def decode (bytes : List Byte) : Except DecodeError (Instr × List Byte) :=
  match bytes with
  | [] => .error .empty
  | op :: rest =>
    match rowOf op with
    | none => .error (.noRow op)
    | some r =>
      if rest.length + 1 < r.len then .error (.truncated op)
      else
        match r.build op (rest.getD 0 0) (rest.getD 1 0) with
        | some i => .ok (i, rest.drop (r.len - 1))
        | none => .error (.noRow op)

/-! ### The encoder -/

/-- The bytes of an instruction, first byte first, from the encodings of R82 to R86 (low byte of a 16-bit operand first). On an
ill-formed term the bytes are another instruction's. -/
def encode : Instr → List Byte
  | .movRR dst src => [(0b01#2 ++ dst.code ++ src.code)]
  | .movRM dst => [(0b01#2 ++ dst.code ++ 0b110#3)]
  | .movMR src => [(0b01110#5 ++ src.code)]
  | .mviR dst imm => [(0b00#2 ++ dst.code ++ 0b110#3), imm]
  | .mviM imm => [0b00110110#8, imm]
  | .lda adr => [0b00111010#8, loByte adr, hiByte adr]
  | .sta adr => [0b00110010#8, loByte adr, hiByte adr]
  | .ldax pair => [(0b00#2 ++ pair.code ++ 0b1010#4)]
  | .stax pair => [(0b00#2 ++ pair.code ++ 0b0010#4)]
  | .lhld adr => [0b00101010#8, loByte adr, hiByte adr]
  | .shld adr => [0b00100010#8, loByte adr, hiByte adr]
  | .lxi pair imm => [(0b00#2 ++ pair.code ++ 0b0001#4), loByte imm, hiByte imm]
  | .pushRp pair => [(0b11#2 ++ pair.code ++ 0b0101#4)]
  | .pushPsw => [0b11110101#8]
  | .popRp pair => [(0b11#2 ++ pair.code ++ 0b0001#4)]
  | .popPsw => [0b11110001#8]
  | .xthl => [0b11100011#8]
  | .sphl => [0b11111001#8]
  | .pchl => [0b11101001#8]
  | .xchg => [0b11101011#8]
  | .addR src => [(0b10000#5 ++ src.code)]
  | .addM => [0b10000110#8]
  | .adcR src => [(0b10001#5 ++ src.code)]
  | .adcM => [0b10001110#8]
  | .subR src => [(0b10010#5 ++ src.code)]
  | .subM => [0b10010110#8]
  | .sbbR src => [(0b10011#5 ++ src.code)]
  | .sbbM => [0b10011110#8]
  | .anaR src => [(0b10100#5 ++ src.code)]
  | .anaM => [0b10100110#8]
  | .xraR src => [(0b10101#5 ++ src.code)]
  | .xraM => [0b10101110#8]
  | .oraR src => [(0b10110#5 ++ src.code)]
  | .oraM => [0b10110110#8]
  | .cmpR src => [(0b10111#5 ++ src.code)]
  | .cmpM => [0b10111110#8]
  | .inrR dst => [(0b00#2 ++ dst.code ++ 0b100#3)]
  | .inrM => [0b00110100#8]
  | .dcrR dst => [(0b00#2 ++ dst.code ++ 0b101#3)]
  | .dcrM => [0b00110101#8]
  | .adi imm => [0b11000110#8, imm]
  | .aci imm => [0b11001110#8, imm]
  | .sui imm => [0b11010110#8, imm]
  | .sbi imm => [0b11011110#8, imm]
  | .ani imm => [0b11100110#8, imm]
  | .xri imm => [0b11101110#8, imm]
  | .ori imm => [0b11110110#8, imm]
  | .cpi imm => [0b11111110#8, imm]
  | .daa => [0b00100111#8]
  | .dad pair => [(0b00#2 ++ pair.code ++ 0b1001#4)]
  | .inx pair => [(0b00#2 ++ pair.code ++ 0b0011#4)]
  | .dcx pair => [(0b00#2 ++ pair.code ++ 0b1011#4)]
  | .jmp adr => [0b11000011#8, loByte adr, hiByte adr]
  | .call adr => [0b11001101#8, loByte adr, hiByte adr]
  | .ret => [0b11001001#8]
  | .jnz adr => [0b11000010#8, loByte adr, hiByte adr]
  | .jz adr => [0b11001010#8, loByte adr, hiByte adr]
  | .jnc adr => [0b11010010#8, loByte adr, hiByte adr]
  | .jc adr => [0b11011010#8, loByte adr, hiByte adr]
  | .jpo adr => [0b11100010#8, loByte adr, hiByte adr]
  | .jpe adr => [0b11101010#8, loByte adr, hiByte adr]
  | .jp adr => [0b11110010#8, loByte adr, hiByte adr]
  | .jm adr => [0b11111010#8, loByte adr, hiByte adr]
  | .cnz adr => [0b11000100#8, loByte adr, hiByte adr]
  | .cz adr => [0b11001100#8, loByte adr, hiByte adr]
  | .cnc adr => [0b11010100#8, loByte adr, hiByte adr]
  | .cc adr => [0b11011100#8, loByte adr, hiByte adr]
  | .cpo adr => [0b11100100#8, loByte adr, hiByte adr]
  | .cpe adr => [0b11101100#8, loByte adr, hiByte adr]
  | .cp adr => [0b11110100#8, loByte adr, hiByte adr]
  | .cm adr => [0b11111100#8, loByte adr, hiByte adr]
  | .rnz => [0b11000000#8]
  | .rz => [0b11001000#8]
  | .rnc => [0b11010000#8]
  | .rc => [0b11011000#8]
  | .rpo => [0b11100000#8]
  | .rpe => [0b11101000#8]
  | .rp => [0b11110000#8]
  | .rm => [0b11111000#8]
  | .rlc => [0b00000111#8]
  | .rrc => [0b00001111#8]
  | .ral => [0b00010111#8]
  | .rar => [0b00011111#8]
  | .inPort port => [0b11011011#8, port]
  | .outPort port => [0b11010011#8, port]
  | .stc => [0b00110111#8]
  | .cmc => [0b00111111#8]
  | .cma => [0b00101111#8]
  | .nop => [0b00000000#8]
  | .hlt => [0b01110110#8]
  | .di => [0b11110011#8]
  | .ei => [0b11111011#8]
  | .rst n => [(0b11#2 ++ n ++ 0b111#3)]
  | .undef08 => [0b00001000#8]
  | .undef10 => [0b00010000#8]
  | .undef18 => [0b00011000#8]
  | .undef20 => [0b00100000#8]
  | .undef28 => [0b00101000#8]
  | .undef30 => [0b00110000#8]
  | .undef38 => [0b00111000#8]
  | .undefCB adr => [0b11001011#8, loByte adr, hiByte adr]
  | .undefD9 => [0b11011001#8]
  | .undefDD adr => [0b11011101#8, loByte adr, hiByte adr]
  | .undefED adr => [0b11101101#8, loByte adr, hiByte adr]
  | .undefFD adr => [0b11111101#8, loByte adr, hiByte adr]

/-- The bytes of a word numbered as spec/opcode_table.json numbers its bits: the k-th byte is bits 8k+7 to 8k. -/
def tableBytes (nbits w : Nat) : List Byte :=
  [BitVec.ofNat 8 (w % 2 ^ nbits), BitVec.ofNat 8 (w % 2 ^ nbits / 2 ^ 8), BitVec.ofNat 8 (w % 2 ^ nbits / 2 ^ 16)]

/-- What the decoder reads from an instruction whose bits are `w`, of which the table gives the row `nbits`; every higher bit
is 0. -/
def decodeTableWord (nbits w : Nat) : Option Instr :=
  match decode (tableBytes nbits w) with
  | .ok (i, _) => some i
  | .error _ => none

end Sys2Proof
end

