-- ==== Sys2Proof/Config.lean ====
section
/-! DEFINITION. The named parameters the spec leaves open (spec/00_scope.md R5), as plain data, and the free values: constants with
no body, which stand for the values the spec leaves to the environment or does not give. -/

namespace Sys2Proof.Config

/-- UNDOC_POLICY (30_encoding.md R97): what the twelve undefined first bytes do. -/
inductive UndocPolicy where
  /-- The model's fault `UndefinedOpcode` (60_exceptions.md R260): the spec's default. -/
  | fault
  /-- The alias table of R97, which the spec takes from general knowledge (PRESUMED, log 8). -/
  | alias_
  deriving DecidableEq, Repr

/-- AC_AND_POLICY (43_logic_cmp_daa.md R170): the AC flag after ANA and ANI. -/
inductive AcAndPolicy where
  /-- AC is bit 3 of the OR of the operands: the spec's default (PRESUMED, log 9). -/
  | orBit3
  /-- AC is cleared. -/
  | zero
  deriving DecidableEq, Repr

/-- PSW_FIXED (10_state.md R30): the three bits of the pushed flag byte that hold no flag. -/
structure PswFixed where
  bit5 : Bool
  bit3 : Bool
  bit1 : Bool
  deriving DecidableEq, Repr

/-- The kinds of address of MEMMAP (20_memory.md R62). -/
inductive MemKind where
  | ram
  | rom
  | unpopulated
  | device
  deriving DecidableEq, Repr

/-- The addresses from `first` to `last`, both included, are of kind `kind`. -/
structure Region where
  first : Word
  last : Word
  kind : MemKind
  deriving DecidableEq, Repr

/-- INT_INSTR (60_exceptions.md R267): which instruction an interrupting device may supply at acknowledge. The spec has one value. -/
inductive IntInstr where
  /-- One of the eight `RST n`. -/
  | rstOnly
  deriving DecidableEq, Repr

/-- RESET_STATE (00_scope.md R5, 70_reset_and_hazards.md R290): what a reset of a machine that has run writes. `none` is
"unspecified": the register then takes a free value. -/
structure ResetState where
  pc : Word
  inte : Bool
  halted : Bool
  eiPending : Bool
  a : Option Byte
  b : Option Byte
  c : Option Byte
  d : Option Byte
  e : Option Byte
  h : Option Byte
  l : Option Byte
  sp : Option Word
  s : Option Bool
  z : Option Bool
  ac : Option Bool
  p : Option Bool
  cy : Option Bool
  deriving DecidableEq, Repr

/-- R290's values: PC = 0, INTE = 0, halted = 0, ei_pending = 0, everything else unspecified. -/
def ResetState.standard : ResetState :=
  { pc := 0x0000, inte := false, halted := false, eiPending := false
    a := none, b := none, c := none, d := none, e := none, h := none, l := none, sp := none
    s := none, z := none, ac := none, p := none, cy := none }

/-- The open parameters of R5 that are values. The two that are agents, IO and INT, are the fields `inputs`, `history` and `offers` of
the state and the free values `drawByte` and `intRequest`. MEMMAP is a list of regions: the first that holds an address gives its kind, and
an address in none is `ram` (DESIGN CHOICE for the form, log 4). -/
structure Params where
  undoc : UndocPolicy
  acAnd : AcAndPolicy
  pswFixed : PswFixed
  memMap : List Region
  intInstr : IntInstr
  resetState : ResetState
  deriving DecidableEq, Repr

/-- The defaults of R5. -/
def Params.standard : Params :=
  { undoc := .fault, acAnd := .orBit3, pswFixed := { bit5 := false, bit3 := false, bit1 := true }
    memMap := [], intInstr := .rstOnly, resetState := ResetState.standard }

/-- What an address that the memory does not list reads as: DESIGN CHOICE 00 (log 2); the spec leaves RAM at power-on open. -/
def unlistedByte : Byte := 0x00

/-- FREE VALUE (log 5): the byte of the n-th draw (an IN, a read of a device or unpopulated address) that the environment's list of
answers does not cover (20_memory.md R56, R59). Nothing is known of it. -/
opaque drawByte : Nat → Byte

/-- FREE VALUE (log 6): what INT offers at a boundary that the environment's list of offers does not cover and at which a request would
be accepted (60_exceptions.md R265): no request, or one for a restart number. Nothing is known of it: INT may request at any boundary,
with any number. -/
opaque intRequest : Nat → Option (BitVec 3)

/-- FREE VALUE (log 7): what the 8-bit register with a code of 10_state.md R21 holds after a reset of a machine that has run. -/
opaque resetByte : Nat → BitVec 3 → Byte

/-- FREE VALUE (log 7): what SP holds after a reset of a machine that has run. -/
opaque resetSp : Nat → Word

/-- FREE VALUE (log 7): what the flag at a bit position of the flag byte (10_state.md R30) holds after such a reset. -/
opaque resetFlag : Nat → BitVec 3 → Bool

end Sys2Proof.Config
end

