-- ==== Sys2Proof/Machine/State.lean ====
section
/-! DEFINITION. The state of the machine as plain data (spec/10_state.md R20, R41; spec/60_exceptions.md R275), the reasons a step can
stop, and the state after a power-on reset. -/

namespace Sys2Proof.Machine

/-- The seven 8-bit registers (R21). BC, DE and HL are views of them (R23). -/
structure Regs where
  a : Byte
  b : Byte
  c : Byte
  d : Byte
  e : Byte
  h : Byte
  l : Byte
  deriving DecidableEq, Repr

/-- The five flags (R28). -/
structure Flags where
  s : Bool
  z : Bool
  ac : Bool
  p : Bool
  cy : Bool
  deriving DecidableEq, Repr

/-- The memory (20_memory.md R50): the bytes that differ from `Config.unlistedByte`, at rising addresses. -/
abbrev Memory := List Host.Cell

/-- The events of the history (20_memory.md R56, R57, R59). -/
inductive IoEvent where
  /-- `in(p, v)`: an IN from port `port` drew `v`. -/
  | inp (port : Byte) (v : Byte)
  /-- `out(p, v)`: an OUT wrote `v` to port `port`. -/
  | out (port : Byte) (v : Byte)
  /-- A read of a device address drew `v`. -/
  | deviceRead (addr : Word) (v : Byte)
  /-- A write to a device address. -/
  | deviceWrite (addr : Word) (v : Byte)
  deriving DecidableEq, Repr

/-- What the environment does at one instruction boundary (60_exceptions.md R265, R270; 70_reset_and_hazards.md R290). -/
inductive Offer where
  /-- No request. -/
  | quiet
  /-- A request whose device supplies `RST n`. -/
  | request (n : BitVec 3)
  /-- Reset. -/
  | reset
  deriving DecidableEq, Repr

/-- Why the machine stops with a fault. The hardware itself raises none (60_exceptions.md R261). -/
inductive Fault where
  /-- R260: the first byte `op` fetched at `addr` is one of the twelve undefined ones and UNDOC_POLICY is `fault`. Raised by the
  meanings of the undefined first bytes, and again by every step of a configuration marked faulted. Safe. -/
  | undefinedOpcode (op : Byte) (addr : Word)
  deriving DecidableEq, Repr

/-- Why the model gives no meaning. -/
inductive Refusal where
  /-- Raised by an arm of `exec` that has no meaning yet: none is left. Safe. -/
  | notModelled (mnemonic : String)
  /-- Raised by the meanings of LDAX, STAX, PUSH and POP for a pair their encodings do not admit (30_encoding.md R99): such a term is
  no instruction and the decoder never gives it. Safe. -/
  | illFormed (mnemonic : String)
  /-- Raised by `step` if the decoder refused the bytes fetched: never the case (R100). Safe. -/
  | undecodable
  deriving DecidableEq, Repr

/-- The whole configuration: the CPU's state (R41), the fault mark and the history (R275), the parameters (00_scope.md R5), and the
model's own fields that carry the environment: `offers`, `inputs`, `draws` (log 5, log 6). -/
structure State where
  /-- A, B, C, D, E, H, L (R21). -/
  regs : Regs
  /-- S, Z, AC, P, CY (R28). -/
  flags : Flags
  /-- The stack pointer (R25). -/
  sp : Word
  /-- The program counter (R26). -/
  pc : Word
  /-- The interrupt enable (R33). -/
  inte : Bool
  /-- The CPU is halted (R34). -/
  halted : Bool
  /-- `ei_pending` (R35). -/
  eiPending : Bool
  /-- The memory (20_memory.md R50). -/
  mem : Memory
  /-- The fault mark with what R260 records. -/
  faulted : Option Fault
  /-- The history, oldest event first (R275). -/
  history : List IoEvent
  /-- The open parameters; no step changes them. -/
  params : Config.Params
  /-- What the environment offers at the coming boundaries. Once the list has run out INT is free, and no reset comes (DESIGN CHOICE,
  log 6). -/
  offers : List Offer
  /-- What the environment answers to the coming draws; a free value once the list has run out (log 5). -/
  inputs : List Byte
  /-- How many draws, free requests and resets have taken a value so far: the index of the next free value (log 5, log 6, log 7). -/
  draws : Nat
  deriving DecidableEq, Repr

/-- What one step or one instruction answers. -/
abbrev Result := Host.Outcome State Fault Refusal

/-- After a reset at power-on (R40, R290): PC, INTE, halted and ei_pending as the spec says, nothing marked, nothing recorded, the
default parameters; A to L, SP and the flags at 0 (DESIGN CHOICE, log 1), no byte of memory listed (log 2), an environment
of which nothing is listed (log 5, log 6). -/
def State.reset : State :=
  { regs := { a := 0, b := 0, c := 0, d := 0, e := 0, h := 0, l := 0 }
    flags := { s := false, z := false, ac := false, p := false, cy := false }
    sp := 0x0000, pc := 0x0000, inte := false, halted := false, eiPending := false
    mem := [], faulted := none, history := [], params := Config.Params.standard
    offers := [], inputs := [], draws := 0 }

end Sys2Proof.Machine
end

