-- ==== Sys2Proof/Machine/Ops.lean ====
section
/-! DEFINITION. The named operations of the machine: memory and its canonical form, the state updates, reads and writes of memory
and ports (spec/20_memory.md), the stack (spec/41_transfer16.md R123), control transfer (spec/45_control.md R200), interrupt entry
and return (spec/60_exceptions.md R266 to R268) and reset (spec/70_reset_and_hazards.md R290). -/

namespace Sys2Proof.Machine

/-! ### Memory as a list of cells -/

/-- The byte a memory holds at an address. -/
def memGet : Memory → Nat → Byte
  | [], _ => Config.unlistedByte
  | (b, v) :: rest, a => if a < b then Config.unlistedByte else if a = b then v else memGet rest a

/-- The memory without its leading cells at `a` or below. -/
def memDropTo : Memory → Nat → Memory
  | [], _ => []
  | (b, v) :: rest, a => if b ≤ a then memDropTo rest a else (b, v) :: rest

/-- The memory with `v` at `a`; the value an unlisted address reads as leaves no cell behind. -/
def memSet : Memory → Nat → Byte → Memory
  | [], a, v => if v = Config.unlistedByte then [] else [(a, v)]
  | (b, w) :: rest, a, v =>
    if a < b then (if v = Config.unlistedByte then (b, w) :: rest else (a, v) :: (b, w) :: rest)
    else if a = b then (if v = Config.unlistedByte then memDropTo rest a else (a, v) :: memDropTo rest a)
    else (b, w) :: memSet rest a v

/-- The canonical form: addresses inside the space and strictly rising, no cell equal to what an unlisted address reads as. -/
def Memory.wf : Memory → Bool
  | [] => true
  | (a, v) :: rest =>
    decide (a < 2 ^ 16) && v != Config.unlistedByte && rest.all (fun cell => decide (a < cell.1)) && Memory.wf rest

/-- The kind of an address under MEMMAP (R62): that of the first region that holds it, `ram` where none does. -/
def kindAt (p : Config.Params) (a : Word) : Config.MemKind :=
  match p.memMap.find? (fun r => decide (r.first ≤ a) && decide (a ≤ r.last)) with
  | some r => r.kind
  | none => .ram

/-! ### State updates, each named once -/

def State.withRegs (s : State) (r : Regs) : State := { s with regs := r }

def State.withFlags (s : State) (f : Flags) : State := { s with flags := f }

def State.withSp (s : State) (w : Word) : State := { s with sp := w }

def State.withMem (s : State) (m : Memory) : State := { s with mem := m }

def State.record (s : State) (e : IoEvent) : State := { s with history := s.history ++ [e] }

/-- One draw was taken; `rest` are the answers left. -/
def State.drawn (s : State) (rest : List Byte) : State := { s with inputs := rest, draws := s.draws + 1 }

/-- The end of every instruction but EI: PC is set, and `ei_pending` cleared (47_other.md R248). -/
def State.goto (s : State) (target : Word) : State := { s with pc := target, eiPending := false }

/-- `pc <- next` (10_state.md R27): PC moves past the `len` bytes of the instruction. -/
def State.advance (s : State) (len : Word) : State := s.goto (s.pc + len)

/-! ### Reads and writes -/

/-- `mem[a]`: the byte stored at an address, whatever its kind. -/
def State.byteAt (s : State) (a : Word) : Byte := memGet s.mem a.toNat

/-- A draw: the environment's next answer, or a free value where its list has run out (log 5). -/
def State.draw (s : State) : Byte × State :=
  match s.inputs with
  | v :: rest => (v, s.drawn rest)
  | [] => (Config.drawByte s.draws, s.drawn [])

/-- `MemRead(a, 1)` (R56). -/
def State.load (s : State) (a : Word) : Byte × State :=
  match kindAt s.params a with
  | .ram => (s.byteAt a, s)
  | .rom => (s.byteAt a, s)
  | .unpopulated => s.draw
  | .device => (s.draw.1, s.draw.2.record (.deviceRead a s.draw.1))

/-- `MemWrite(a, 1, v)` (R57). -/
def State.store (s : State) (a : Word) (v : Byte) : State :=
  match kindAt s.params a with
  | .ram => s.withMem (memSet s.mem a.toNat v)
  | .rom => s
  | .unpopulated => s
  | .device => s.record (.deviceWrite a v)

/-- `MemRead(a, 2)`: the low byte at `a`, then the high byte at `a + 1` (R55, R58). -/
def State.load16 (s : State) (a : Word) : Word × State :=
  (joinBytes ((s.load a).2.load (a + 1)).1 (s.load a).1, ((s.load a).2.load (a + 1)).2)

/-- `MemWrite(a, 2, w)`: the low byte at `a`, then the high byte at `a + 1` (R57, R58). -/
def State.store16 (s : State) (a : Word) (w : Word) : State :=
  (s.store a (loByte w)).store (a + 1) (hiByte w)

/-- `IoRead(p)` (R59). -/
def State.ioRead (s : State) (port : Byte) : Byte × State :=
  (s.draw.1, s.draw.2.record (.inp port s.draw.1))

/-- `IoWrite(p, v)` (R59). -/
def State.ioWrite (s : State) (port : Byte) (v : Byte) : State := s.record (.out port v)

/-! ### The stack (41_transfer16.md R123) -/

/-- `push16(w)`: the high byte at SP - 1, then the low byte at SP - 2. -/
def State.push16 (s : State) (w : Word) : State :=
  ((s.store (s.sp - 1) (hiByte w)).store (s.sp - 2) (loByte w)).withSp (s.sp - 2)

/-- `pop16()`. -/
def State.pop16 (s : State) : Word × State :=
  ((s.load16 s.sp).1, (s.load16 s.sp).2.withSp (s.sp + 2))

/-! ### Control transfer (45_control.md R200) -/

/-- What CALL does: push the address after the `len` bytes of the instruction, go to `target` (R202). -/
def State.callTo (s : State) (len target : Word) : State := (s.push16 (s.pc + len)).goto target

/-- What RET does: pop the return address and go to it (R203). It is also the return from an interrupt handler: the 8080 has no
other, and nothing but PC is restored (60_exceptions.md R268). -/
def State.returnToCaller (s : State) : State := s.pop16.2.goto s.pop16.1

/-- A jump of three bytes if the condition holds (R204 to R211). -/
def State.jumpIf (s : State) (taken : Bool) (target : Word) : State :=
  if taken then s.goto target else s.advance 3

/-- A call of three bytes if the condition holds (R212 to R219). -/
def State.callIf (s : State) (taken : Bool) (target : Word) : State :=
  if taken then s.callTo 3 target else s.advance 3

/-- A return of one byte if the condition holds (R220 to R227). -/
def State.returnIf (s : State) (taken : Bool) : State :=
  if taken then s.returnToCaller else s.advance 1

/-- The restart address of `n`: `zext_16(n) << 3` (30_encoding.md R86). -/
def restartAddress (n : BitVec 3) : Word := n.setWidth 16 <<< 3

/-- An undefined first byte (60_exceptions.md R260, 30_encoding.md R97): the model's fault, or what the byte is an alias of. -/
def undefinedFirstByte (op : Byte) (s aliased : State) : Result :=
  match s.params.undoc with
  | .fault => .fault (.undefinedOpcode op s.pc)
  | .alias_ => .next aliased

/-! ### Between instructions -/

/-- A request is accepted at this boundary (60_exceptions.md R266). -/
def State.acceptEnabled (s : State) : Bool := s.inte && !s.eiPending && s.faulted.isNone

/-- What INT offers, as an offer of the environment. -/
def offerOf : Option (BitVec 3) → Offer
  | none => .quiet
  | some n => .request n

/-- The environment's offer at this boundary, taken off its list. Where the list has run out INT is unconstrained (00_scope.md R5): it
offers a free value if a request would be accepted; where none would, a request has no effect (60_exceptions.md R265) and none is
taken. DESIGN CHOICE (log 6): a reset comes only from the list. -/
def State.takeOffer (s : State) : Offer × State :=
  match s.offers with
  | o :: rest => (o, { s with offers := rest })
  | [] => if s.acceptEnabled then (offerOf (Config.intRequest s.draws), { s with draws := s.draws + 1 }) else (.quiet, s)

/-- Where the instruction that the device supplies for the number `n` goes (60_exceptions.md R267; INT_INSTR). -/
def entryAddress (p : Config.Params) (n : BitVec 3) : Word :=
  match p.intInstr with
  | .rstOnly => restartAddress n

/-- INTERRUPT ENTRY, the one way the machine takes an exception (R267): INTE and the halt are cleared, PC as it stands is pushed,
and PC goes to the restart address. -/
def State.acceptInterrupt (s : State) (n : BitVec 3) : State :=
  ({ s with inte := false, halted := false }.push16 s.pc).goto (entryAddress s.params n)

/-- A register after a reset of a machine that has run: the platform's value, else a free one. -/
def resetReg (given : Option Byte) (index : Nat) (code : BitVec 3) : Byte := given.getD (Config.resetByte index code)

/-- RESET of a machine that has run (R290): PC and the interrupt state as RESET_STATE says, the fault mark cleared, registers, SP and
flags unspecified (free values, log 7) where RESET_STATE gives none, memory and history kept. -/
def State.resetRunning (s : State) : State :=
  let r := s.params.resetState
  { s with
    pc := r.pc, inte := r.inte, halted := r.halted, eiPending := r.eiPending, faulted := none
    regs :=
      { a := resetReg r.a s.draws 7, b := resetReg r.b s.draws 0, c := resetReg r.c s.draws 1, d := resetReg r.d s.draws 2
        e := resetReg r.e s.draws 3, h := resetReg r.h s.draws 4, l := resetReg r.l s.draws 5 }
    sp := r.sp.getD (Config.resetSp s.draws)
    flags :=
      { s := r.s.getD (Config.resetFlag s.draws 7), z := r.z.getD (Config.resetFlag s.draws 6)
        ac := r.ac.getD (Config.resetFlag s.draws 4), p := r.p.getD (Config.resetFlag s.draws 2)
        cy := r.cy.getD (Config.resetFlag s.draws 0) }
    draws := s.draws + 1 }

end Sys2Proof.Machine
end

