-- ==== Sys2Proof/Machine/Operands.lean ====
section
/-! DEFINITION. The operand forms (spec/20_memory.md R60, spec/30_encoding.md R87, spec/10_state.md R21, R23): registers, pairs, and the
memory byte `M` at HL. -/

namespace Sys2Proof.Machine

/-- `r[c]` (R21). -/
def State.getReg (s : State) : Reg → Byte
  | .b => s.regs.b
  | .c => s.regs.c
  | .d => s.regs.d
  | .e => s.regs.e
  | .h => s.regs.h
  | .l => s.regs.l
  | .a => s.regs.a

/-- `r[c] <- v`. -/
def State.setReg (s : State) (r : Reg) (v : Byte) : State :=
  match r with
  | .b => s.withRegs { s.regs with b := v }
  | .c => s.withRegs { s.regs with c := v }
  | .d => s.withRegs { s.regs with d := v }
  | .e => s.withRegs { s.regs with e := v }
  | .h => s.withRegs { s.regs with h := v }
  | .l => s.withRegs { s.regs with l := v }
  | .a => s.withRegs { s.regs with a := v }

/-- The pair HL: H is the high byte (R23). -/
def State.hl (s : State) : Word := joinBytes s.regs.h s.regs.l

/-- `rp[p]` (R23). -/
def State.getPair (s : State) : RegPair → Word
  | .bc => joinBytes s.regs.b s.regs.c
  | .de => joinBytes s.regs.d s.regs.e
  | .hl => joinBytes s.regs.h s.regs.l
  | .sp => s.sp

/-- `rp[p] <- w` (R23). -/
def State.setPair (s : State) (p : RegPair) (w : Word) : State :=
  match p with
  | .bc => s.withRegs { s.regs with b := hiByte w, c := loByte w }
  | .de => s.withRegs { s.regs with d := hiByte w, e := loByte w }
  | .hl => s.withRegs { s.regs with h := hiByte w, l := loByte w }
  | .sp => s.withSp w

/-- The operand `M` as a source: the byte at HL is read, then `f` goes on with it (R87). -/
def State.onM (s : State) (f : Byte → State → State) : State := f (s.load s.hl).1 (s.load s.hl).2

/-- The operand `M` as a destination (R87). -/
def State.storeM (s : State) (v : Byte) : State := s.store s.hl v

end Sys2Proof.Machine
end

