-- ==== Sys2Proof/Machine/Flags.lean ====
section
/-! DEFINITION. Every flag computation (spec/42_arith8.md R140 to R142, spec/43_logic_cmp_daa.md R170, R188, spec/44_arith16.md R190,
spec/46_rotate.md R230 to R233), the flag byte (spec/10_state.md R30) and the conditions (R32). The formulas are the spec's own
decisions from general knowledge (PRESUMED, log 11, log 12). -/

namespace Sys2Proof.Machine

/-- `parity8(v)`: the number of 1 bits is even (R140). -/
def parity8 (v : Byte) : Bool :=
  ((v.getLsbD 0).toNat + (v.getLsbD 1).toNat + (v.getLsbD 2).toNat + (v.getLsbD 3).toNat
    + (v.getLsbD 4).toNat + (v.getLsbD 5).toNat + (v.getLsbD 6).toNat + (v.getLsbD 7).toNat) % 2 == 0

/-- `setZSP(v)` (R140). -/
def setZSP (v : Byte) (f : Flags) : Flags := { f with z := v == 0x00, s := v.getLsbD 7, p := parity8 v }

/-- What an 8-bit addition or subtraction gives. -/
structure Alu where
  res : Byte
  cy : Bool
  ac : Bool
  deriving DecidableEq, Repr

/-- `add8(a, b, cin)` (R141): the exact sum, its carry out of bit 7 and the carry out of bit 3. -/
def add8 (a b : Byte) (cin : Bool) : Alu :=
  { res := BitVec.ofNat 8 (a.toNat + b.toNat + cin.toNat)
    cy := decide (a.toNat + b.toNat + cin.toNat > 255)
    ac := decide (a.toNat % 16 + b.toNat % 16 + cin.toNat > 15) }

/-- `sub8(a, b, bin)` (R142): `a + ~b + (1 - bin)`; CY is the borrow, AC the carry out of bit 3, not inverted. -/
def sub8 (a b : Byte) (bin : Bool) : Alu :=
  { res := (add8 a (~~~b) (!bin)).res, cy := !(add8 a (~~~b) (!bin)).cy, ac := (add8 a (~~~b) (!bin)).ac }

/-- All five flags from an addition, subtraction or compare (R141, R142). -/
def arithFlags (r : Alu) (f : Flags) : Flags := setZSP r.res { f with cy := r.cy, ac := r.ac }

/-- The flags of INR and DCR: CY is kept (R141, R142). -/
def stepFlags (r : Alu) (f : Flags) : Flags := setZSP r.res { f with ac := r.ac }

/-- `A <- res` and all five flags (ADD, ADC, SUB, SBB, ADI, ACI, SUI, SBI). -/
def State.accumulate (s : State) (r : Alu) : State :=
  (s.withRegs { s.regs with a := r.res }).withFlags (arithFlags r s.flags)

/-- All five flags, A not written (CMP, CPI). -/
def State.compare (s : State) (r : Alu) : State := s.withFlags (arithFlags r s.flags)

/-- AC after ANA and ANI, from the old A and the operand (R170, AC_AND_POLICY). -/
def acAfterAnd (policy : Config.AcAndPolicy) (a v : Byte) : Bool :=
  match policy with
  | .orBit3 => (a ||| v).getLsbD 3
  | .zero => false

/-- `flagsLogic` (R170): Z, S, P from the result, CY cleared, AC as given. -/
def flagsLogic (res : Byte) (ac : Bool) (f : Flags) : Flags := setZSP res { f with cy := false, ac := ac }

/-- `A <- A & v` with its flags (ANA, ANI). -/
def State.andA (s : State) (v : Byte) : State :=
  (s.withRegs { s.regs with a := s.regs.a &&& v }).withFlags
    (flagsLogic (s.regs.a &&& v) (acAfterAnd s.params.acAnd s.regs.a v) s.flags)

/-- `A <- A ^ v` with its flags (XRA, XRI). -/
def State.xorA (s : State) (v : Byte) : State :=
  (s.withRegs { s.regs with a := s.regs.a ^^^ v }).withFlags (flagsLogic (s.regs.a ^^^ v) false s.flags)

/-- `A <- A | v` with its flags (ORA, ORI). -/
def State.orA (s : State) (v : Byte) : State :=
  (s.withRegs { s.regs with a := s.regs.a ||| v }).withFlags (flagsLogic (s.regs.a ||| v) false s.flags)

/-- The low correction of DAA applies (R188). -/
def daaLow (a : Byte) (ac : Bool) : Bool := ac || decide (a.toNat % 16 > 9)

/-- The high correction of DAA applies (R188). -/
def daaHigh (a : Byte) (cy : Bool) : Bool :=
  cy || decide (a.toNat / 16 > 9) || (decide (a.toNat / 16 ≥ 9) && decide (a.toNat % 16 > 9))

/-- The byte DAA adds (R188). -/
def daaCorrection (a : Byte) (cy ac : Bool) : Byte :=
  (if daaLow a ac then 0x06 else 0x00) ||| (if daaHigh a cy then 0x60 else 0x00)

/-- DAA on A, CY and AC (R188): CY is set with the high correction and otherwise kept, never cleared. -/
def daa (a : Byte) (cy ac : Bool) : Alu :=
  { res := (add8 a (daaCorrection a cy ac) false).res
    cy := cy || daaHigh a cy
    ac := (add8 a (daaCorrection a cy ac) false).ac }

/-- `HL <- HL + w` with CY the carry out of bit 15; no other flag (R190). -/
def State.addHl (s : State) (w : Word) : State :=
  (s.setPair .hl (s.hl + w)).withFlags { s.flags with cy := decide (s.hl.toNat + w.toNat > 65535) }

/-- A and CY from a rotate; no other flag (46_rotate.md R234). -/
def State.rotated (s : State) (a : Byte) (cy : Bool) : State :=
  (s.withRegs { s.regs with a := a }).withFlags { s.flags with cy := cy }

/-- A moved up one place, with `bit` entering bit 0 (R230, R232). -/
def shiftUp (a : Byte) (bit : Bool) : Byte := a.extractLsb' 0 7 ++ BitVec.ofBool bit

/-- A moved down one place, with `bit` entering bit 7 (R231, R233). -/
def shiftDown (a : Byte) (bit : Bool) : Byte := BitVec.ofBool bit ++ a.extractLsb' 1 7

/-- The flag byte `S Z x AC x P x CY` (10_state.md R30), with the fixed bits of PSW_FIXED. -/
def flagByte (fixed : Config.PswFixed) (f : Flags) : Byte :=
  BitVec.ofBool f.s ++ BitVec.ofBool f.z ++ BitVec.ofBool fixed.bit5 ++ BitVec.ofBool f.ac
    ++ BitVec.ofBool fixed.bit3 ++ BitVec.ofBool f.p ++ BitVec.ofBool fixed.bit1 ++ BitVec.ofBool f.cy

/-- The flags in a popped byte; bits 5, 3 and 1 are discarded (41_transfer16.md R127). -/
def flagsOfByte (v : Byte) : Flags :=
  { s := v.getLsbD 7, z := v.getLsbD 6, ac := v.getLsbD 4, p := v.getLsbD 2, cy := v.getLsbD 0 }

/-- `cond(CCC)` (10_state.md R32). -/
def Flags.holds (f : Flags) : Cond → Bool
  | .nz => !f.z
  | .z => f.z
  | .nc => !f.cy
  | .c => f.cy
  | .po => !f.p
  | .pe => f.p
  | .p => !f.s
  | .m => f.s

end Sys2Proof.Machine
end

