-- ==== Sys2Proof/Machine/Arith16.lean ====
section
/-! DEFINITION. 16-bit arithmetic (spec/44_arith16.md R190 to R192). -/

namespace Sys2Proof.Machine

/-- `DAD rp` (R190): HL and CY, no other flag. -/
def execDad (pair : RegPair) (s : State) : Result := .next ((s.addHl (s.getPair pair)).advance 1)

/-- `INX rp` (R191): no flag. -/
def execInx (pair : RegPair) (s : State) : Result := .next ((s.setPair pair (s.getPair pair + 1)).advance 1)

/-- `DCX rp` (R192): no flag. -/
def execDcx (pair : RegPair) (s : State) : Result := .next ((s.setPair pair (s.getPair pair - 1)).advance 1)

end Sys2Proof.Machine
end

