-- ==== Sys2Proof/Machine/Arith8.lean ====
section
/-! DEFINITION. 8-bit arithmetic (spec/42_arith8.md R143 to R158). ADD, ADC, SUB, SBB and their immediate forms write A and all five
flags; INR and DCR keep CY. -/

namespace Sys2Proof.Machine

/-- `ADD r` (R143). -/
def execAddR (src : Reg) (s : State) : Result :=
  .next ((s.accumulate (add8 s.regs.a (s.getReg src) false)).advance 1)

/-- `ADD M` (R144). -/
def execAddM (s : State) : Result :=
  .next ((s.onM fun v t => t.accumulate (add8 t.regs.a v false)).advance 1)

/-- `ADC r` (R145). -/
def execAdcR (src : Reg) (s : State) : Result :=
  .next ((s.accumulate (add8 s.regs.a (s.getReg src) s.flags.cy)).advance 1)

/-- `ADC M` (R146). -/
def execAdcM (s : State) : Result :=
  .next ((s.onM fun v t => t.accumulate (add8 t.regs.a v t.flags.cy)).advance 1)

/-- `SUB r` (R147). -/
def execSubR (src : Reg) (s : State) : Result :=
  .next ((s.accumulate (sub8 s.regs.a (s.getReg src) false)).advance 1)

/-- `SUB M` (R148). -/
def execSubM (s : State) : Result :=
  .next ((s.onM fun v t => t.accumulate (sub8 t.regs.a v false)).advance 1)

/-- `SBB r` (R149). -/
def execSbbR (src : Reg) (s : State) : Result :=
  .next ((s.accumulate (sub8 s.regs.a (s.getReg src) s.flags.cy)).advance 1)

/-- `SBB M` (R150). -/
def execSbbM (s : State) : Result :=
  .next ((s.onM fun v t => t.accumulate (sub8 t.regs.a v t.flags.cy)).advance 1)

/-- `INR r` (R151): CY unchanged. -/
def execInrR (dst : Reg) (s : State) : Result :=
  .next (((s.setReg dst (add8 (s.getReg dst) 1 false).res).withFlags (stepFlags (add8 (s.getReg dst) 1 false) s.flags)).advance 1)

/-- `INR M` (R152): one read, then one write, of the byte at HL. -/
def execInrM (s : State) : Result :=
  .next ((s.onM fun v t => (t.storeM (add8 v 1 false).res).withFlags (stepFlags (add8 v 1 false) t.flags)).advance 1)

/-- `DCR r` (R153): CY unchanged. -/
def execDcrR (dst : Reg) (s : State) : Result :=
  .next (((s.setReg dst (sub8 (s.getReg dst) 1 false).res).withFlags (stepFlags (sub8 (s.getReg dst) 1 false) s.flags)).advance 1)

/-- `DCR M` (R154): one read, then one write, of the byte at HL. -/
def execDcrM (s : State) : Result :=
  .next ((s.onM fun v t => (t.storeM (sub8 v 1 false).res).withFlags (stepFlags (sub8 v 1 false) t.flags)).advance 1)

/-- `ADI d8` (R155). -/
def execAdi (imm : Byte) (s : State) : Result := .next ((s.accumulate (add8 s.regs.a imm false)).advance 2)

/-- `ACI d8` (R156). -/
def execAci (imm : Byte) (s : State) : Result := .next ((s.accumulate (add8 s.regs.a imm s.flags.cy)).advance 2)

/-- `SUI d8` (R157). -/
def execSui (imm : Byte) (s : State) : Result := .next ((s.accumulate (sub8 s.regs.a imm false)).advance 2)

/-- `SBI d8` (R158). -/
def execSbi (imm : Byte) (s : State) : Result := .next ((s.accumulate (sub8 s.regs.a imm s.flags.cy)).advance 2)

end Sys2Proof.Machine
end

