-- ==== Sys2Proof/Machine/Control.lean ====
section
/-! DEFINITION. Jumps, calls and returns (spec/45_control.md R200 to R227). A conditional form that is not taken changes PC only. -/

namespace Sys2Proof.Machine

/-- `JMP adr` (R201). -/
def execJmp (adr : Word) (s : State) : Result := .next (s.goto adr)

/-- `CALL adr` (R202): the address pushed is that of the next instruction. -/
def execCall (adr : Word) (s : State) : Result := .next (s.callTo 3 adr)

/-- `RET` (R203). -/
def execRet (s : State) : Result := .next s.returnToCaller

/-- `JNZ adr` (R204). -/
def execJnz (adr : Word) (s : State) : Result := .next (s.jumpIf (s.flags.holds .nz) adr)

/-- `JZ adr` (R205). -/
def execJz (adr : Word) (s : State) : Result := .next (s.jumpIf (s.flags.holds .z) adr)

/-- `JNC adr` (R206). -/
def execJnc (adr : Word) (s : State) : Result := .next (s.jumpIf (s.flags.holds .nc) adr)

/-- `JC adr` (R207). -/
def execJc (adr : Word) (s : State) : Result := .next (s.jumpIf (s.flags.holds .c) adr)

/-- `JPO adr` (R208). -/
def execJpo (adr : Word) (s : State) : Result := .next (s.jumpIf (s.flags.holds .po) adr)

/-- `JPE adr` (R209). -/
def execJpe (adr : Word) (s : State) : Result := .next (s.jumpIf (s.flags.holds .pe) adr)

/-- `JP adr` (R210). -/
def execJp (adr : Word) (s : State) : Result := .next (s.jumpIf (s.flags.holds .p) adr)

/-- `JM adr` (R211). -/
def execJm (adr : Word) (s : State) : Result := .next (s.jumpIf (s.flags.holds .m) adr)

/-- `CNZ adr` (R212). -/
def execCnz (adr : Word) (s : State) : Result := .next (s.callIf (s.flags.holds .nz) adr)

/-- `CZ adr` (R213). -/
def execCz (adr : Word) (s : State) : Result := .next (s.callIf (s.flags.holds .z) adr)

/-- `CNC adr` (R214). -/
def execCnc (adr : Word) (s : State) : Result := .next (s.callIf (s.flags.holds .nc) adr)

/-- `CC adr` (R215). -/
def execCc (adr : Word) (s : State) : Result := .next (s.callIf (s.flags.holds .c) adr)

/-- `CPO adr` (R216). -/
def execCpo (adr : Word) (s : State) : Result := .next (s.callIf (s.flags.holds .po) adr)

/-- `CPE adr` (R217). -/
def execCpe (adr : Word) (s : State) : Result := .next (s.callIf (s.flags.holds .pe) adr)

/-- `CP adr` (R218). -/
def execCp (adr : Word) (s : State) : Result := .next (s.callIf (s.flags.holds .p) adr)

/-- `CM adr` (R219). -/
def execCm (adr : Word) (s : State) : Result := .next (s.callIf (s.flags.holds .m) adr)

/-- `RNZ` (R220). -/
def execRnz (s : State) : Result := .next (s.returnIf (s.flags.holds .nz))

/-- `RZ` (R221). -/
def execRz (s : State) : Result := .next (s.returnIf (s.flags.holds .z))

/-- `RNC` (R222). -/
def execRnc (s : State) : Result := .next (s.returnIf (s.flags.holds .nc))

/-- `RC` (R223). -/
def execRc (s : State) : Result := .next (s.returnIf (s.flags.holds .c))

/-- `RPO` (R224). -/
def execRpo (s : State) : Result := .next (s.returnIf (s.flags.holds .po))

/-- `RPE` (R225). -/
def execRpe (s : State) : Result := .next (s.returnIf (s.flags.holds .pe))

/-- `RP` (R226). -/
def execRp (s : State) : Result := .next (s.returnIf (s.flags.holds .p))

/-- `RM` (R227). -/
def execRm (s : State) : Result := .next (s.returnIf (s.flags.holds .m))

end Sys2Proof.Machine
end

