-- ==== Sys2Proof/Machine/Logic.lean ====
section
/-! DEFINITION. Logic, compare and decimal adjust (spec/43_logic_cmp_daa.md R171 to R182, R188). -/

namespace Sys2Proof.Machine

/-- `ANA r` (R171). -/
def execAnaR (src : Reg) (s : State) : Result := .next ((s.andA (s.getReg src)).advance 1)

/-- `ANA M` (R172). -/
def execAnaM (s : State) : Result := .next ((s.onM fun v t => t.andA v).advance 1)

/-- `XRA r` (R173). -/
def execXraR (src : Reg) (s : State) : Result := .next ((s.xorA (s.getReg src)).advance 1)

/-- `XRA M` (R174). -/
def execXraM (s : State) : Result := .next ((s.onM fun v t => t.xorA v).advance 1)

/-- `ORA r` (R175). -/
def execOraR (src : Reg) (s : State) : Result := .next ((s.orA (s.getReg src)).advance 1)

/-- `ORA M` (R176). -/
def execOraM (s : State) : Result := .next ((s.onM fun v t => t.orA v).advance 1)

/-- `CMP r` (R177): the flags of SUB, A unchanged. -/
def execCmpR (src : Reg) (s : State) : Result := .next ((s.compare (sub8 s.regs.a (s.getReg src) false)).advance 1)

/-- `CMP M` (R178). -/
def execCmpM (s : State) : Result := .next ((s.onM fun v t => t.compare (sub8 t.regs.a v false)).advance 1)

/-- `ANI d8` (R179). -/
def execAni (imm : Byte) (s : State) : Result := .next ((s.andA imm).advance 2)

/-- `XRI d8` (R180). -/
def execXri (imm : Byte) (s : State) : Result := .next ((s.xorA imm).advance 2)

/-- `ORI d8` (R181). -/
def execOri (imm : Byte) (s : State) : Result := .next ((s.orA imm).advance 2)

/-- `CPI d8` (R182): the flags of SUI, A unchanged. -/
def execCpi (imm : Byte) (s : State) : Result := .next ((s.compare (sub8 s.regs.a imm false)).advance 2)

/-- `DAA` (R188). -/
def execDaa (s : State) : Result := .next ((s.accumulate (daa s.regs.a s.flags.cy s.flags.ac)).advance 1)

end Sys2Proof.Machine
end

