-- ==== Sys2Proof/Machine/Other.lean ====
section
/-! DEFINITION. Input and output, carry and accumulator complement, NOP, HLT, interrupt enable, RST (spec/47_other.md R240 to R249). -/

namespace Sys2Proof.Machine

/-- `IN port` (R240): the byte is a draw, and the event `in(port, v)` is recorded. -/
def execInPort (port : Byte) (s : State) : Result :=
  .next (((s.ioRead port).2.setReg .a (s.ioRead port).1).advance 2)

/-- `OUT port` (R241): the event `out(port, A)` is recorded; nothing else changes but PC. -/
def execOutPort (port : Byte) (s : State) : Result := .next ((s.ioWrite port s.regs.a).advance 2)

/-- `STC` (R242). -/
def execStc (s : State) : Result := .next ((s.withFlags { s.flags with cy := true }).advance 1)

/-- `CMC` (R243). -/
def execCmc (s : State) : Result := .next ((s.withFlags { s.flags with cy := !s.flags.cy }).advance 1)

/-- `CMA` (R244): no flag. -/
def execCma (s : State) : Result := .next ((s.setReg .a (~~~s.regs.a)).advance 1)

/-- `NOP` (R245). -/
def execNop (s : State) : Result := .next (s.advance 1)

/-- `HLT` (R246): PC already points past the HLT while halted. -/
def execHlt (s : State) : Result := .next ({ s with halted := true }.advance 1)

/-- `DI` (R247). -/
def execDi (s : State) : Result := .next ({ s with inte := false }.advance 1)

/-- `EI` (R248): the one instruction that ends with `ei_pending` set. -/
def execEi (s : State) : Result := .next { s.advance 1 with inte := true, eiPending := true }

/-- `RST n` (R249): a one-byte call to `8 * n`; INTE is not changed. -/
def execRst (n : BitVec 3) (s : State) : Result := .next (s.callTo 1 (restartAddress n))

end Sys2Proof.Machine
end

