-- ==== Sys2Proof/Machine/Rotate.lean ====
section
/-! DEFINITION. The four rotates of A by one place (spec/46_rotate.md R230 to R234). CY is the only flag written. -/

namespace Sys2Proof.Machine

/-- `RLC` (R230): old bit 7 enters bit 0 and CY. -/
def execRlc (s : State) : Result :=
  .next ((s.rotated (shiftUp s.regs.a (s.regs.a.getLsbD 7)) (s.regs.a.getLsbD 7)).advance 1)

/-- `RRC` (R231): old bit 0 enters bit 7 and CY. -/
def execRrc (s : State) : Result :=
  .next ((s.rotated (shiftDown s.regs.a (s.regs.a.getLsbD 0)) (s.regs.a.getLsbD 0)).advance 1)

/-- `RAL` (R232): the old CY enters bit 0, old bit 7 enters CY. -/
def execRal (s : State) : Result :=
  .next ((s.rotated (shiftUp s.regs.a s.flags.cy) (s.regs.a.getLsbD 7)).advance 1)

/-- `RAR` (R233): the old CY enters bit 7, old bit 0 enters CY. -/
def execRar (s : State) : Result :=
  .next ((s.rotated (shiftDown s.regs.a s.flags.cy) (s.regs.a.getLsbD 0)).advance 1)

end Sys2Proof.Machine
end

