-- ==== Sys2Proof/Machine/Transfer16.lean ====
section
/-! DEFINITION. 16-bit transfers and the stack (spec/41_transfer16.md R120 to R131). Only POP PSW writes flags; nothing can fault. -/

namespace Sys2Proof.Machine

/-- `LHLD adr` (R120): L from `adr`, H from `adr + 1`. -/
def execLhld (adr : Word) (s : State) : Result :=
  .next (((s.load16 adr).2.setPair .hl (s.load16 adr).1).advance 3)

/-- `SHLD adr` (R121). -/
def execShld (adr : Word) (s : State) : Result := .next ((s.store16 adr s.hl).advance 3)

/-- `LXI rp,d16` (R122). -/
def execLxi (pair : RegPair) (imm : Word) (s : State) : Result := .next ((s.setPair pair imm).advance 3)

/-- `PUSH rp` (R124): BC, DE or HL. -/
def execPushRp (pair : RegPair) (s : State) : Result :=
  if pair.stackable then .next ((s.push16 (s.getPair pair)).advance 1) else .refused (.illFormed "PUSH")

/-- `PUSH PSW` (R125): A is the high byte, the flag byte the low one (R31). -/
def execPushPsw (s : State) : Result :=
  .next ((s.push16 (joinBytes s.regs.a (flagByte s.params.pswFixed s.flags))).advance 1)

/-- `POP rp` (R126): BC, DE or HL. -/
def execPopRp (pair : RegPair) (s : State) : Result :=
  if pair.stackable then .next ((s.pop16.2.setPair pair s.pop16.1).advance 1) else .refused (.illFormed "POP")

/-- `POP PSW` (R127): A and all five flags. -/
def execPopPsw (s : State) : Result :=
  .next (((s.pop16.2.setReg .a (hiByte s.pop16.1)).withFlags (flagsOfByte (loByte s.pop16.1))).advance 1)

/-- `XTHL` (R128): read SP, read SP + 1, write SP + 1 (old H), write SP (old L). -/
def execXthl (s : State) : Result :=
  .next (((((s.load16 s.sp).2.store (s.sp + 1) s.regs.h).store s.sp s.regs.l).setPair .hl (s.load16 s.sp).1).advance 1)

/-- `SPHL` (R129). -/
def execSphl (s : State) : Result := .next ((s.withSp s.hl).advance 1)

/-- `PCHL` (R130): HL is the target itself. -/
def execPchl (s : State) : Result := .next (s.goto s.hl)

/-- `XCHG` (R131). -/
def execXchg (s : State) : Result := .next (((s.setPair .hl (s.getPair .de)).setPair .de s.hl).advance 1)

end Sys2Proof.Machine
end

