-- ==== Sys2Proof/Machine/Transfer8.lean ====
section
/-! DEFINITION. 8-bit transfers (spec/40_transfer8.md R110 to R119). No flag is read or written, nothing can fault (R117). -/

namespace Sys2Proof.Machine

/-- `MOV r1,r2` (R110). -/
def execMovRR (dst src : Reg) (s : State) : Result := .next ((s.setReg dst (s.getReg src)).advance 1)

/-- `MOV r,M` (R111): the address is the old HL. -/
def execMovRM (dst : Reg) (s : State) : Result := .next ((s.onM fun v t => t.setReg dst v).advance 1)

/-- `MOV M,r` (R112). -/
def execMovMR (src : Reg) (s : State) : Result := .next ((s.storeM (s.getReg src)).advance 1)

/-- `MVI r,d8` (R113). -/
def execMviR (dst : Reg) (imm : Byte) (s : State) : Result := .next ((s.setReg dst imm).advance 2)

/-- `MVI M,d8` (R114). -/
def execMviM (imm : Byte) (s : State) : Result := .next ((s.storeM imm).advance 2)

/-- `LDA adr` (R115). -/
def execLda (adr : Word) (s : State) : Result := .next (((s.load adr).2.setReg .a (s.load adr).1).advance 3)

/-- `STA adr` (R116). -/
def execSta (adr : Word) (s : State) : Result := .next ((s.store adr s.regs.a).advance 3)

/-- `LDAX rp` (R118): BC or DE only. -/
def execLdax (pair : RegPair) (s : State) : Result :=
  if pair.addressesMemory then .next (((s.load (s.getPair pair)).2.setReg .a (s.load (s.getPair pair)).1).advance 1)
  else .refused (.illFormed "LDAX")

/-- `STAX rp` (R119): BC or DE only. -/
def execStax (pair : RegPair) (s : State) : Result :=
  if pair.addressesMemory then .next ((s.store (s.getPair pair) s.regs.a).advance 1)
  else .refused (.illFormed "STAX")

end Sys2Proof.Machine
end

