-- ==== Sys2Proof/Machine/Undefined.lean ====
section
/-! DEFINITION. The twelve undefined first bytes (spec/30_encoding.md R97, spec/60_exceptions.md R260): the model's fault under
UNDOC_POLICY = fault (the default), the alias of R97's table under UNDOC_POLICY = alias (PRESUMED, log 8). -/

namespace Sys2Proof.Machine

/-- First byte 0x08; alias: NOP. -/
def execUndef08 (s : State) : Result := undefinedFirstByte 0x08 s (s.advance 1)

/-- First byte 0x10; alias: NOP. -/
def execUndef10 (s : State) : Result := undefinedFirstByte 0x10 s (s.advance 1)

/-- First byte 0x18; alias: NOP. -/
def execUndef18 (s : State) : Result := undefinedFirstByte 0x18 s (s.advance 1)

/-- First byte 0x20; alias: NOP. -/
def execUndef20 (s : State) : Result := undefinedFirstByte 0x20 s (s.advance 1)

/-- First byte 0x28; alias: NOP. -/
def execUndef28 (s : State) : Result := undefinedFirstByte 0x28 s (s.advance 1)

/-- First byte 0x30; alias: NOP. -/
def execUndef30 (s : State) : Result := undefinedFirstByte 0x30 s (s.advance 1)

/-- First byte 0x38; alias: NOP. -/
def execUndef38 (s : State) : Result := undefinedFirstByte 0x38 s (s.advance 1)

/-- First byte 0xCB; alias: JMP a16. -/
def execUndefCB (adr : Word) (s : State) : Result := undefinedFirstByte 0xCB s (s.goto adr)

/-- First byte 0xD9; alias: RET. -/
def execUndefD9 (s : State) : Result := undefinedFirstByte 0xD9 s s.returnToCaller

/-- First byte 0xDD; alias: CALL a16. -/
def execUndefDD (adr : Word) (s : State) : Result := undefinedFirstByte 0xDD s (s.callTo 3 adr)

/-- First byte 0xED; alias: CALL a16. -/
def execUndefED (adr : Word) (s : State) : Result := undefinedFirstByte 0xED s (s.callTo 3 adr)

/-- First byte 0xFD; alias: CALL a16. -/
def execUndefFD (adr : Word) (s : State) : Result := undefinedFirstByte 0xFD s (s.callTo 3 adr)

end Sys2Proof.Machine
end

