-- ==== Sys2Proof/Machine/Dispatch.lean ====
section
/-! DEFINITION. One arm per instruction, each a direct call of its meaning. -/

namespace Sys2Proof.Machine

def exec (i : Instr) (s : State) : Host.Outcome State Fault Refusal :=
  match i with
  -- 8-bit transfers (40_transfer8.md)
  | .movRR dst src => Sys2Proof.Machine.execMovRR dst src s
  | .movRM dst => Sys2Proof.Machine.execMovRM dst s
  | .movMR src => Sys2Proof.Machine.execMovMR src s
  | .mviR dst imm => Sys2Proof.Machine.execMviR dst imm s
  | .mviM imm => Sys2Proof.Machine.execMviM imm s
  | .lda adr => Sys2Proof.Machine.execLda adr s
  | .sta adr => Sys2Proof.Machine.execSta adr s
  | .ldax pair => Sys2Proof.Machine.execLdax pair s
  | .stax pair => Sys2Proof.Machine.execStax pair s
  -- 16-bit transfers (41_transfer16.md)
  | .lhld adr => Sys2Proof.Machine.execLhld adr s
  | .shld adr => Sys2Proof.Machine.execShld adr s
  | .lxi pair imm => Sys2Proof.Machine.execLxi pair imm s
  | .pushRp pair => Sys2Proof.Machine.execPushRp pair s
  | .pushPsw => Sys2Proof.Machine.execPushPsw s
  | .popRp pair => Sys2Proof.Machine.execPopRp pair s
  | .popPsw => Sys2Proof.Machine.execPopPsw s
  | .xthl => Sys2Proof.Machine.execXthl s
  | .sphl => Sys2Proof.Machine.execSphl s
  | .pchl => Sys2Proof.Machine.execPchl s
  | .xchg => Sys2Proof.Machine.execXchg s
  -- 8-bit arithmetic and logic (42_arith8.md, 43_logic_cmp_daa.md)
  | .addR src => Sys2Proof.Machine.execAddR src s
  | .addM => Sys2Proof.Machine.execAddM s
  | .adcR src => Sys2Proof.Machine.execAdcR src s
  | .adcM => Sys2Proof.Machine.execAdcM s
  | .subR src => Sys2Proof.Machine.execSubR src s
  | .subM => Sys2Proof.Machine.execSubM s
  | .sbbR src => Sys2Proof.Machine.execSbbR src s
  | .sbbM => Sys2Proof.Machine.execSbbM s
  | .anaR src => Sys2Proof.Machine.execAnaR src s
  | .anaM => Sys2Proof.Machine.execAnaM s
  | .xraR src => Sys2Proof.Machine.execXraR src s
  | .xraM => Sys2Proof.Machine.execXraM s
  | .oraR src => Sys2Proof.Machine.execOraR src s
  | .oraM => Sys2Proof.Machine.execOraM s
  | .cmpR src => Sys2Proof.Machine.execCmpR src s
  | .cmpM => Sys2Proof.Machine.execCmpM s
  | .inrR dst => Sys2Proof.Machine.execInrR dst s
  | .inrM => Sys2Proof.Machine.execInrM s
  | .dcrR dst => Sys2Proof.Machine.execDcrR dst s
  | .dcrM => Sys2Proof.Machine.execDcrM s
  | .adi imm => Sys2Proof.Machine.execAdi imm s
  | .aci imm => Sys2Proof.Machine.execAci imm s
  | .sui imm => Sys2Proof.Machine.execSui imm s
  | .sbi imm => Sys2Proof.Machine.execSbi imm s
  | .ani imm => Sys2Proof.Machine.execAni imm s
  | .xri imm => Sys2Proof.Machine.execXri imm s
  | .ori imm => Sys2Proof.Machine.execOri imm s
  | .cpi imm => Sys2Proof.Machine.execCpi imm s
  | .daa => Sys2Proof.Machine.execDaa s
  -- 16-bit arithmetic (44_arith16.md)
  | .dad pair => Sys2Proof.Machine.execDad pair s
  | .inx pair => Sys2Proof.Machine.execInx pair s
  | .dcx pair => Sys2Proof.Machine.execDcx pair s
  -- Jumps, calls, returns (45_control.md)
  | .jmp adr => Sys2Proof.Machine.execJmp adr s
  | .call adr => Sys2Proof.Machine.execCall adr s
  | .ret => Sys2Proof.Machine.execRet s
  | .jnz adr => Sys2Proof.Machine.execJnz adr s
  | .jz adr => Sys2Proof.Machine.execJz adr s
  | .jnc adr => Sys2Proof.Machine.execJnc adr s
  | .jc adr => Sys2Proof.Machine.execJc adr s
  | .jpo adr => Sys2Proof.Machine.execJpo adr s
  | .jpe adr => Sys2Proof.Machine.execJpe adr s
  | .jp adr => Sys2Proof.Machine.execJp adr s
  | .jm adr => Sys2Proof.Machine.execJm adr s
  | .cnz adr => Sys2Proof.Machine.execCnz adr s
  | .cz adr => Sys2Proof.Machine.execCz adr s
  | .cnc adr => Sys2Proof.Machine.execCnc adr s
  | .cc adr => Sys2Proof.Machine.execCc adr s
  | .cpo adr => Sys2Proof.Machine.execCpo adr s
  | .cpe adr => Sys2Proof.Machine.execCpe adr s
  | .cp adr => Sys2Proof.Machine.execCp adr s
  | .cm adr => Sys2Proof.Machine.execCm adr s
  | .rnz => Sys2Proof.Machine.execRnz s
  | .rz => Sys2Proof.Machine.execRz s
  | .rnc => Sys2Proof.Machine.execRnc s
  | .rc => Sys2Proof.Machine.execRc s
  | .rpo => Sys2Proof.Machine.execRpo s
  | .rpe => Sys2Proof.Machine.execRpe s
  | .rp => Sys2Proof.Machine.execRp s
  | .rm => Sys2Proof.Machine.execRm s
  -- Rotations (46_rotate.md)
  | .rlc => Sys2Proof.Machine.execRlc s
  | .rrc => Sys2Proof.Machine.execRrc s
  | .ral => Sys2Proof.Machine.execRal s
  | .rar => Sys2Proof.Machine.execRar s
  -- Other instructions (47_other.md)
  | .inPort port => Sys2Proof.Machine.execInPort port s
  | .outPort port => Sys2Proof.Machine.execOutPort port s
  | .stc => Sys2Proof.Machine.execStc s
  | .cmc => Sys2Proof.Machine.execCmc s
  | .cma => Sys2Proof.Machine.execCma s
  | .nop => Sys2Proof.Machine.execNop s
  | .hlt => Sys2Proof.Machine.execHlt s
  | .di => Sys2Proof.Machine.execDi s
  | .ei => Sys2Proof.Machine.execEi s
  | .rst n => Sys2Proof.Machine.execRst n s
  -- The twelve undefined first bytes (30_encoding.md R97); those that alias JMP and CALL carry the two operand bytes of the alias
  | .undef08 => Sys2Proof.Machine.execUndef08 s
  | .undef10 => Sys2Proof.Machine.execUndef10 s
  | .undef18 => Sys2Proof.Machine.execUndef18 s
  | .undef20 => Sys2Proof.Machine.execUndef20 s
  | .undef28 => Sys2Proof.Machine.execUndef28 s
  | .undef30 => Sys2Proof.Machine.execUndef30 s
  | .undef38 => Sys2Proof.Machine.execUndef38 s
  | .undefCB adr => Sys2Proof.Machine.execUndefCB adr s
  | .undefD9 => Sys2Proof.Machine.execUndefD9 s
  | .undefDD adr => Sys2Proof.Machine.execUndefDD adr s
  | .undefED adr => Sys2Proof.Machine.execUndefED adr s
  | .undefFD adr => Sys2Proof.Machine.execUndefFD adr s

end Sys2Proof.Machine
end

