-- ==== Sys2Proof/Machine/Fetch.lean ====
section
/-! DEFINITION. Fetching an instruction's bytes (spec/20_memory.md R70, spec/60_exceptions.md R275): at PC and the addresses after it,
modulo 2^16, through the same memory read as data. -/

namespace Sys2Proof.Machine

/-- The bytes of the instruction at PC, as many as its first byte asks for, and the state after the reads. -/
def State.fetch (s : State) : List Byte × State :=
  let r1 := s.load s.pc
  match opLength r1.1 with
  | 3 =>
    let r2 := r1.2.load (s.pc + 1)
    let r3 := r2.2.load (s.pc + 2)
    ([r1.1, r2.1, r3.1], r3.2)
  | 2 =>
    let r2 := r1.2.load (s.pc + 1)
    ([r1.1, r2.1], r2.2)
  | _ => ([r1.1], r1.2)

/-- The configuration a fault leaves (60_exceptions.md R275): the first byte is read, the mark is set with what R260 records, and the
machine stops. DEDUCED (log 29): where that read draws or is an event (R56), the answer is taken and the event stays in the history;
R260's "no state change" is read as one of the CPU's state and memory, since R41 says that the history is no state. -/
def State.markFault (s : State) (f : Fault) : State := { (s.load s.pc).2 with faulted := some f }

/-- The bytes stored at an address and at the two after it. -/
def State.bytesAt (s : State) (a : Word) : List Byte := [s.byteAt a, s.byteAt (a + 1), s.byteAt (a + 2)]

/-- The kind answers a read with the stored byte (R56). -/
def answersStored : Config.MemKind → Bool
  | .ram | .rom => true
  | .unpopulated | .device => false

/-- The three addresses from `a` on answer a read with the byte stored there. -/
def State.storedAt (s : State) (a : Word) : Bool :=
  answersStored (kindAt s.params a) && answersStored (kindAt s.params (a + 1)) && answersStored (kindAt s.params (a + 2))

/-- Three bytes stored from PC on, whatever the kind of the addresses: a program placed from outside (log 22). -/
def State.pokeAtPc (s : State) (bytes : List Byte) : State :=
  s.withMem
    (memSet (memSet (memSet s.mem s.pc.toNat (bytes.getD 0 0)) (s.pc + 1).toNat (bytes.getD 1 0)) (s.pc + 2).toNat (bytes.getD 2 0))

end Sys2Proof.Machine
end

