-- ==== Sys2Proof/Machine/Step.lean ====
section
/-! DEFINITION. One step of the machine: the transitions of spec/60_exceptions.md R275, chosen by the environment's offer at this
boundary. -/

namespace Sys2Proof.Machine

/-- The transition `(instr)`: nothing in a faulted configuration or while halted (a halted machine changes no state, R34; log 16),
else fetch, decode and execute. -/
def instrStep (s : State) : Host.Outcome State Fault Refusal :=
  match s.faulted with
  | some f => .fault f
  | none =>
    if s.halted then .next s
    else
      match decode s.fetch.1 with
      | .ok (i, _) => exec i s.fetch.2
      | .error _ => .refused .undecodable

/-- One step (R275): reset if the environment resets, interrupt entry if it requests and acceptance is enabled (R266), else the next
instruction. The outcome `fault` holds no state; `State.transition` gives the marked configuration. -/
def step (s : State) : Host.Outcome State Fault Refusal :=
  match s.takeOffer.1 with
  | .reset => .next s.takeOffer.2.resetRunning
  | .request n => if s.acceptEnabled then .next (s.takeOffer.2.acceptInterrupt n) else instrStep s.takeOffer.2
  | .quiet => instrStep s.takeOffer.2

/-- The state with the instruction whose bits are `w` stored where the next step fetches, and that step made to fetch it: not halted,
not faulted, no request and no reset at the next boundary, and addresses that answer with what is stored there. From `State.reset` only the
memory differs. -/
def State.withFetchWord (s : State) (nbits w : Nat) : State :=
  { s.pokeAtPc (tableBytes nbits w) with
    halted := false, faulted := none
    offers := if s.offers.isEmpty && !s.inte then [] else .quiet :: s.offers
    params := if s.storedAt s.pc then s.params else { s.params with memMap := [] } }

end Sys2Proof.Machine
end

