-- ==== Sys2Proof/Machine/Assembler.lean ====
section
/-! DEFINITION. The assembler as far as the spec fixes it (spec/00_scope.md R2; spec/30_encoding.md R101 to R105, R107): the 78 mnemonics
with their operand classes, number constants, the nine directives and the image a list of statements assembles to. Operands
out of range are refused by name (93_implementation_defined.md U27); where the source leaves a point open the model chooses (log 28,
log 30, log 31). No step of the machine depends on this file: the machine consumes bytes (92_eei_decisions.md D23). -/

namespace Sys2Proof.Machine

/-- An operand as written (R102, R104): a number, a character, or a name. Whether a name is a register, a pair or a symbol is decided by
the mnemonic. The source shows characters in DB and DW lists only ("ASCII"); that one may stand wherever a number may is a
DESIGN CHOICE (log 30). -/
inductive AsmExp where
  | num (n : Nat)
  | chr (c : Char)
  | name (x : String)
  deriving DecidableEq, Repr

/-- Why the assembler refuses a statement. -/
inductive AsmError where
  /-- The mnemonic is none of R107's. -/
  | unknownMnemonic (m : String)
  /-- The operands are not of the mnemonic's class (R103). -/
  | badOperands (m : String)
  /-- The name is no symbol defined so far. -/
  | undefinedSymbol (x : String)
  /-- The value does not fit its field (U27). -/
  | outOfRange (n : Nat)
  /-- A label or EQU symbol is defined twice. -/
  | duplicateSymbol (x : String)
  /-- ENDIF without IF, or IF without ENDIF. -/
  | unbalancedIf
  deriving DecidableEq, Repr

/-- The operand classes of R103. -/
inductive OperandForm where
  /-- `RM1,RM2`, not both M. -/
  | move
  /-- `RM,data8`. -/
  | moveImmediate
  /-- `RM`. -/
  | regOrM (onReg : Reg → Instr) (onM : Instr)
  /-- `data8`. -/
  | data8 (build : Byte → Instr)
  /-- `RP,data16`. -/
  | loadPair
  /-- `RP`. -/
  | pair (build : RegPair → Instr)
  /-- `BD`. -/
  | bcOrDe (build : RegPair → Instr)
  /-- `BP`. -/
  | stacked (build : RegPair → Instr) (psw : Instr)
  /-- `Addr`. -/
  | address (build : Word → Instr)
  /-- `Port`. -/
  | port (build : Byte → Instr)
  /-- `n`, 0 to 7. -/
  | restart
  /-- No operand. -/
  | bare (i : Instr)

/-- The 78 mnemonics (R107) and the operand class of each (R103). -/
def mnemonicTable : List (String × OperandForm) :=
  [ ("MOV", .move), ("MVI", .moveImmediate), ("INR", .regOrM .inrR .inrM), ("DCR", .regOrM .dcrR .dcrM)
  , ("ADD", .regOrM .addR .addM), ("ADC", .regOrM .adcR .adcM), ("SUB", .regOrM .subR .subM)
  , ("SBB", .regOrM .sbbR .sbbM), ("ANA", .regOrM .anaR .anaM), ("XRA", .regOrM .xraR .xraM)
  , ("ORA", .regOrM .oraR .oraM), ("CMP", .regOrM .cmpR .cmpM), ("ADI", .data8 .adi), ("ACI", .data8 .aci)
  , ("SUI", .data8 .sui), ("SBI", .data8 .sbi), ("ANI", .data8 .ani), ("XRI", .data8 .xri), ("ORI", .data8 .ori)
  , ("CPI", .data8 .cpi), ("LXI", .loadPair), ("INX", .pair .inx), ("DCX", .pair .dcx), ("DAD", .pair .dad)
  , ("LDAX", .bcOrDe .ldax), ("STAX", .bcOrDe .stax), ("PUSH", .stacked .pushRp .pushPsw)
  , ("POP", .stacked .popRp .popPsw), ("LDA", .address .lda), ("STA", .address .sta), ("LHLD", .address .lhld)
  , ("SHLD", .address .shld), ("JMP", .address .jmp), ("CALL", .address .call), ("JNZ", .address .jnz)
  , ("JZ", .address .jz), ("JNC", .address .jnc), ("JC", .address .jc), ("JPO", .address .jpo), ("JPE", .address .jpe)
  , ("JP", .address .jp), ("JM", .address .jm), ("CNZ", .address .cnz), ("CZ", .address .cz), ("CNC", .address .cnc)
  , ("CC", .address .cc), ("CPO", .address .cpo), ("CPE", .address .cpe), ("CP", .address .cp), ("CM", .address .cm)
  , ("IN", .port .inPort), ("OUT", .port .outPort), ("RST", .restart), ("XTHL", .bare .xthl), ("SPHL", .bare .sphl)
  , ("PCHL", .bare .pchl), ("XCHG", .bare .xchg), ("DAA", .bare .daa), ("RET", .bare .ret), ("RNZ", .bare .rnz)
  , ("RZ", .bare .rz), ("RNC", .bare .rnc), ("RC", .bare .rc), ("RPO", .bare .rpo), ("RPE", .bare .rpe)
  , ("RP", .bare .rp), ("RM", .bare .rm), ("RLC", .bare .rlc), ("RRC", .bare .rrc), ("RAL", .bare .ral)
  , ("RAR", .bare .rar), ("STC", .bare .stc), ("CMC", .bare .cmc), ("CMA", .bare .cma), ("NOP", .bare .nop)
  , ("HLT", .bare .hlt), ("DI", .bare .di), ("EI", .bare .ei) ]

/-- The register with a name (R102). DESIGN CHOICE (log 28): names and mnemonics are in upper case and letter case counts, also in
symbols; the source says nothing of case (R101, 91_not_in_source.md N17). -/
def regNamed (x : String) : Option Reg :=
  [("A", Reg.a), ("B", .b), ("C", .c), ("D", .d), ("E", .e), ("H", .h), ("L", .l)].lookup x

/-- The pair with a name (R102): its first register, or SP. -/
def pairNamed (x : String) : Option RegPair := [("B", RegPair.bc), ("D", .de), ("H", .hl), ("SP", .sp)].lookup x

/-- The symbols defined so far, the latest first, and whether each may be redefined (SET). -/
abbrev Symbols := List (String × Nat × Bool)

/-- The value of an operand: the number itself, the code of the character, the latest value of the symbol. DESIGN CHOICE (log 30; R104
leaves character constants open): a character is accepted in every operand that has a value, not in DB and DW lists only, and has the
code of its Unicode code point, which is its ASCII code where it has one; like a number, it must only fit the operand's field. -/
def asmValue (syms : Symbols) : AsmExp → Except AsmError Nat
  | .num n => .ok n
  | .chr c => .ok c.toNat
  | .name x =>
    match syms.lookup x with
    | some (n, _) => .ok n
    | none => .error (.undefinedSymbol x)

/-- A value that must be below a bound. -/
def fits (bound n : Nat) : Except AsmError Nat := if n < bound then .ok n else .error (.outOfRange n)

/-- The instruction a mnemonic and its operands stand for (R101 to R103); destination first. Letter case counts: only the upper-case
spellings of R102 and R107 are accepted (DESIGN CHOICE, log 28). -/
def instrNamed (value : AsmExp → Except AsmError Nat) (m : String) (ops : List AsmExp) : Except AsmError Instr :=
  let bad : Except AsmError Instr := .error (.badOperands m)
  let byte (e : AsmExp) (k : Byte → Instr) : Except AsmError Instr :=
    ((value e).bind (fits 256)).map fun n => k (BitVec.ofNat 8 n)
  let word (e : AsmExp) (k : Word → Instr) : Except AsmError Instr :=
    ((value e).bind (fits 65536)).map fun n => k (BitVec.ofNat 16 n)
  match mnemonicTable.lookup m with
  | none => .error (.unknownMnemonic m)
  | some form =>
    match form, ops with
    | .move, [.name x, .name y] =>
      match regNamed x, regNamed y with
      | some dst, some src => .ok (.movRR dst src)
      | some dst, none => if y = "M" then .ok (.movRM dst) else bad
      | none, some src => if x = "M" then .ok (.movMR src) else bad
      | none, none => bad
    | .moveImmediate, [.name x, e] =>
      match regNamed x with
      | some dst => byte e (.mviR dst)
      | none => if x = "M" then byte e .mviM else bad
    | .regOrM onReg onM, [.name x] =>
      match regNamed x with
      | some r => .ok (onReg r)
      | none => if x = "M" then .ok onM else bad
    | .data8 build, [e] => byte e build
    | .loadPair, [.name x, e] =>
      match pairNamed x with
      | some pair => word e (.lxi pair)
      | none => bad
    | .pair build, [.name x] =>
      match pairNamed x with
      | some pair => .ok (build pair)
      | none => bad
    | .bcOrDe build, [.name x] =>
      match pairNamed x with
      | some pair => if pair.addressesMemory then .ok (build pair) else bad
      | none => bad
    | .stacked build psw, [.name x] =>
      match pairNamed x with
      | some pair => if pair.stackable then .ok (build pair) else bad
      | none => if x = "PSW" then .ok psw else bad
    | .address build, [e] => word e build
    | .port build, [e] => byte e build
    | .restart, [e] => ((value e).bind (fits 8)).map fun n => .rst (BitVec.ofNat 3 n)
    | .bare i, [] => .ok i
    | _, _ => bad

/-- What one statement does (R101, R105). -/
inductive AsmOp where
  /-- A machine instruction. -/
  | code (mnemonic : String) (operands : List AsmExp)
  /-- `ORG Addr`. -/
  | org (e : AsmExp)
  /-- `END`. -/
  | finish
  /-- `label EQU Addr`. -/
  | equ (e : AsmExp)
  /-- `SET Exp`, with the label that names the constant. -/
  | set (e : AsmExp)
  /-- `IF Exp`. -/
  | ifNonzero (e : AsmExp)
  /-- `ENDIF`. -/
  | endif
  /-- `DB List`. -/
  | db (items : List AsmExp)
  /-- `DW List`. -/
  | dw (items : List AsmExp)
  /-- `DS Exp`. -/
  | ds (e : AsmExp)
  /-- A label alone. -/
  | nothing
  deriving DecidableEq, Repr

/-- A statement with the label that may precede it (R101). -/
structure AsmLine where
  label : Option String
  op : AsmOp
  deriving DecidableEq, Repr

/-- Where the assembler stands: the address of the next byte, the symbols, the bytes placed so far (latest first), how many IFs are
open, and how many of them are skipped. -/
structure AsmState where
  loc : Nat
  syms : Symbols
  image : List (Nat × Byte)
  opened : Nat
  skipped : Nat
  ended : Bool
  deriving DecidableEq, Repr

/-- A symbol is defined. In the second pass every label and EQU symbol is there already, with its value, and a SET
symbol with the last one it was SET to (log 31). -/
def AsmState.define (firstPass : Bool) (st : AsmState) (x : String) (n : Nat) (redefinable : Bool) : Except AsmError AsmState :=
  match st.syms.lookup x with
  | some (_, old) =>
    if firstPass && !(old && redefinable) then .error (.duplicateSymbol x)
    else .ok { st with syms := (x, n, redefinable) :: st.syms }
  | none => .ok { st with syms := (x, n, redefinable) :: st.syms }

/-- Bytes are placed at the address reached; none may lie beyond 0xFFFF (log 28). -/
def AsmState.emit (st : AsmState) (bytes : List Byte) : Except AsmError AsmState :=
  (fits 65537 (st.loc + bytes.length)).map fun stop =>
    { st with loc := stop, image := (bytes.mapIdx fun k b => (st.loc + k, b)).reverse ++ st.image }

/-- One statement outside a skipped IF. In the first pass the value of an instruction's, DB's or DW's operand does not matter, only
how many bytes it takes (R81), so that a symbol may be defined after its use. DESIGN CHOICE (log 31; R101, R105 are silent): a label has
the address reached before its statement takes effect, so on an ORG line the address before the ORG, and on a DS line the first of the
bytes reserved. -/
def AsmState.assembleLine (firstPass : Bool) (st : AsmState) (line : AsmLine) : Except AsmError AsmState :=
  let late : AsmExp → Except AsmError Nat := if firstPass then fun _ => .ok 0 else asmValue st.syms
  let labelled : Except AsmError AsmState :=
    match line.label, line.op with
    | none, _ => .ok st
    | some _, .equ _ => .ok st
    | some _, .set _ => .ok st
    | some x, _ => st.define firstPass x st.loc false
  match labelled with
  | .error e => .error e
  | .ok st =>
    match line.op with
    | .code m ops => (instrNamed late m ops).bind fun i => st.emit (encode i)
    | .org e => ((asmValue st.syms e).bind (fits 65536)).map fun n => { st with loc := n }
    | .finish => .ok { st with ended := true }
    | .equ e =>
      match line.label with
      | some x => ((asmValue st.syms e).bind (fits 65536)).bind fun n => st.define firstPass x n false
      | none => .error (.badOperands "EQU")
    | .set e =>
      match line.label with
      | some x => ((asmValue st.syms e).bind (fits 65536)).bind fun n => st.define firstPass x n true
      | none => .error (.badOperands "SET")
    | .ifNonzero e =>
      (asmValue st.syms e).map fun n =>
        { st with opened := st.opened + 1, skipped := if n = 0 then 1 else 0 }
    | .endif => if st.opened = 0 then .error .unbalancedIf else .ok { st with opened := st.opened - 1 }
    | .db items => (items.mapM fun e => ((late e).bind (fits 256)).map (BitVec.ofNat 8)).bind st.emit
    | .dw items =>
      (items.mapM fun e => ((late e).bind (fits 65536)).map (BitVec.ofNat 16)).bind fun ws =>
        st.emit (ws.flatMap fun w => [loByte w, hiByte w])
    | .ds e => (asmValue st.syms e).bind fun n => (fits 65537 (st.loc + n)).map fun stop => { st with loc := stop }
    | .nothing => .ok st

/-- One statement: nothing after END; inside a skipped IF only IF and ENDIF count (R105). -/
def AsmState.assemble (firstPass : Bool) (st : AsmState) (line : AsmLine) : Except AsmError AsmState :=
  if st.ended then .ok st
  else if st.skipped = 0 then st.assembleLine firstPass line
  else
    match line.op with
    | .ifNonzero _ => .ok { st with opened := st.opened + 1, skipped := st.skipped + 1 }
    | .endif => .ok { st with opened := st.opened - 1, skipped := st.skipped - 1 }
    | _ => .ok st

/-- One pass over the statements, from address 0. -/
def assemblePass (firstPass : Bool) (syms : Symbols) (lines : List AsmLine) : Except AsmError AsmState :=
  (lines.foldlM (AsmState.assemble firstPass)
    { loc := 0, syms := syms, image := [], opened := 0, skipped := 0, ended := false }).bind fun st =>
    if st.opened = 0 then .ok st else .error .unbalancedIf

/-- The image of a list of statements: addresses and bytes in the order they are placed. The first pass finds the symbols, the
second the bytes. DESIGN CHOICE (log 31; R105 is silent): the second pass starts from the symbols the first ended with, so an
instruction, DB or DW that uses a SET symbol before its first SET takes the last value that is SET. -/
def assembleImage (lines : List AsmLine) : Except AsmError (List (Nat × Byte)) :=
  (assemblePass true [] lines).bind fun first =>
    (assemblePass false first.syms lines).map fun second => second.image.reverse

/-- An image loaded into memory from outside the machine (log 22). -/
def State.loadImage (s : State) (image : List (Nat × Byte)) : State :=
  s.withMem (image.foldl (fun m cell => memSet m (cell.1 % 65536) cell.2) s.mem)

/-- The value of a hexadecimal digit. -/
def hexDigit (c : Char) : Option Nat :=
  if '0' ≤ c ∧ c ≤ '9' then some (c.toNat - 48)
  else if 'A' ≤ c ∧ c ≤ 'F' then some (c.toNat - 55)
  else none

/-- The value of digits, most significant first. -/
def hexDigits : Nat → List Char → Option Nat
  | acc, [] => some acc
  | acc, c :: rest => (hexDigit c).bind fun v => hexDigits (acc * 16 + v) rest

/-- A hexadecimal constant (R104): a leading decimal digit and a trailing H. No other spelling is accepted. -/
def hexConstant (chars : List Char) : Option Nat :=
  match chars.reverse with
  | 'H' :: digits =>
    match digits.reverse with
    | [] => none
    | lead :: rest => if lead.isDigit then hexDigits 0 (lead :: rest) else none
  | _ => none

end Sys2Proof.Machine
end

