-- ==== Sys2Proof/Safety.lean ====
section
/-! DEFINITION. What counts as a legal state, as the end of a run and as a safe run (spec/70_reset_and_hazards.md R295,
spec/60_exceptions.md R260, R266, R275), and the terms the statements use: what stays the same over an instruction, what a store
does, what the flags of an 8-bit result are. These terms are written apart from the operations they are compared with. -/

namespace Sys2Proof.Machine

/-- RESET_STATE gives a legal interrupt state. -/
def resetStateLegal (r : Config.ResetState) : Bool := (!r.eiPending || r.inte) && !(r.halted && r.eiPending)

/-- The invariant of the machine: the memory is in its canonical form, `ei_pending` is set only with INTE, a halted machine has no
`ei_pending` (R266), and a reset keeps that. -/
def State.Inv (s : State) : Prop :=
  Memory.wf s.mem = true ∧ (s.eiPending = true → s.inte = true) ∧ (s.halted = true → s.eiPending = false)
    ∧ resetStateLegal s.params.resetState = true

/-- Halted for good: the end of a run (R295). -/
def State.final (s : State) : Bool := s.halted && !s.inte && s.faulted.isNone

/-- Halted, waiting for an interrupt (R295). -/
def State.waiting (s : State) : Bool := s.halted && s.inte && s.faulted.isNone

/-- The configuration after a step, faults included (R275): the environment's offer is taken and the fault recorded by `markFault`,
which keeps what the read of the undefined first byte drew and recorded (DEDUCED, log 29); a configuration already marked reads
nothing; a refusal leaves the state. -/
def State.transition (s : State) : State :=
  match step s with
  | .next t => t
  | .fault f =>
    match s.faulted with
    | none => s.takeOffer.2.markFault f
    | some _ => s.takeOffer.2
  | .refused _ => s

/-- `k` transitions. -/
def State.run (s : State) : Nat → State
  | 0 => s
  | k + 1 => s.transition.run k

/-- The run of `k` transitions raises no fault: it is not marked at its end, and no reset clears a mark on the way. -/
def State.safeFor (s : State) : Nat → Bool
  | 0 => s.faulted.isNone
  | k + 1 => s.faulted.isNone && s.transition.safeFor k

/-! ### What stays the same -/

/-- The control state but for `ei_pending` is kept. -/
def KeepsControl (s t : State) : Prop :=
  t.inte = s.inte ∧ t.halted = s.halted ∧ t.faulted = s.faulted ∧ t.params = s.params ∧ t.offers = s.offers

/-- The control state an instruction does not name: kept, but for `ei_pending`, which every instruction other than EI clears
(47_other.md R248; log 14). -/
def SameControl (s t : State) : Prop := KeepsControl s t ∧ t.eiPending = false

/-- The history is as it was and no draw was taken. -/
def SameEnvironment (s t : State) : Prop := t.history = s.history ∧ t.inputs = s.inputs ∧ t.draws = s.draws

/-- Every byte of memory reads as before. -/
def SameMemory (s t : State) : Prop := ∀ a : Word, t.byteAt a = s.byteAt a

/-- Every 8-bit register but those listed reads as before. -/
def SameRegsBut (changed : List Reg) (s t : State) : Prop := ∀ r : Reg, r ∉ changed → t.getReg r = s.getReg r

/-- The register `dst` takes `v` in an instruction of `len` bytes and nothing else changes; `u` is the state after the operand was
read, which differs from `s` only in the environment's part. -/
def WritesReg (s u t : State) (dst : Reg) (v : Byte) (len : Word) : Prop :=
  t.getReg dst = v ∧ SameRegsBut [dst] s t ∧ t.flags = s.flags ∧ t.sp = s.sp ∧ t.pc = s.pc + len ∧
    SameControl s t ∧ SameEnvironment u t ∧ SameMemory s t

/-! ### What a store does (20_memory.md R57) -/

/-- The event a store of `v` at `a` records: one for a device address, none otherwise. -/
def storeEvent (s : State) (a : Word) (v : Byte) : List IoEvent :=
  if kindAt s.params a = .device then [.deviceWrite a v] else []

/-- From `s` to `t` the byte `v` is stored at `a`: RAM holds it, any other kind keeps its byte, a device records it, and every other
address and the rest of the environment's part are as before. -/
def StoresByte (s t : State) (a : Word) (v : Byte) : Prop :=
  (∀ b : Word, b ≠ a → t.byteAt b = s.byteAt b) ∧
    t.byteAt a = (if kindAt s.params a = .ram then v else s.byteAt a) ∧
    t.history = s.history ++ storeEvent s a v ∧ t.inputs = s.inputs ∧ t.draws = s.draws

/-- From `s` to `t` two bytes are stored, `v` at `a` first and then `w` at `b`. -/
def StoresTwo (s t : State) (a : Word) (v : Byte) (b : Word) (w : Byte) : Prop :=
  (∀ x : Word, x ≠ a → x ≠ b → t.byteAt x = s.byteAt x) ∧
    t.byteAt a = (if kindAt s.params a = .ram then v else s.byteAt a) ∧
    t.byteAt b = (if kindAt s.params b = .ram then w else s.byteAt b) ∧
    t.history = s.history ++ storeEvent s a v ++ storeEvent s b w ∧ t.inputs = s.inputs ∧ t.draws = s.draws

/-! ### Which addresses are stored to -/

/-- The two addresses a push writes (41_transfer16.md R123). -/
def State.pushSlots (s : State) : List Word := [s.sp - 1, s.sp - 2]

/-- The addresses a conditional call writes. -/
def State.callSlots (s : State) (cond : Cond) : List Word := if s.flags.holds cond then s.pushSlots else []

/-- The addresses an instruction that runs in `s` may store to; every other instruction stores nothing. -/
def storeAddresses (i : Instr) (s : State) : List Word :=
  match i with
  | .movMR _ | .mviM _ | .inrM | .dcrM => [s.hl]
  | .sta adr => [adr]
  | .stax pair => [s.getPair pair]
  | .shld adr => [adr, adr + 1]
  | .xthl => [s.sp + 1, s.sp]
  | .pushRp _ | .pushPsw | .call _ | .rst _ | .undefDD _ | .undefED _ | .undefFD _ => s.pushSlots
  | .cnz _ => s.callSlots .nz
  | .cz _ => s.callSlots .z
  | .cnc _ => s.callSlots .nc
  | .cc _ => s.callSlots .c
  | .cpo _ => s.callSlots .po
  | .cpe _ => s.callSlots .pe
  | .cp _ => s.callSlots .p
  | .cm _ => s.callSlots .m
  | .movRR .. | .movRM _ | .mviR .. | .lda _ | .ldax _ | .lhld _ | .lxi .. | .popRp _ | .popPsw | .sphl | .pchl | .xchg => []
  | .addR _ | .addM | .adcR _ | .adcM | .subR _ | .subM | .sbbR _ | .sbbM | .adi _ | .aci _ | .sui _ | .sbi _ => []
  | .anaR _ | .anaM | .xraR _ | .xraM | .oraR _ | .oraM | .cmpR _ | .cmpM | .ani _ | .xri _ | .ori _ | .cpi _ => []
  | .inrR _ | .dcrR _ | .daa | .dad _ | .inx _ | .dcx _ | .rlc | .rrc | .ral | .rar => []
  | .jmp _ | .jnz _ | .jz _ | .jnc _ | .jc _ | .jpo _ | .jpe _ | .jp _ | .jm _ => []
  | .ret | .rnz | .rz | .rnc | .rc | .rpo | .rpe | .rp | .rm => []
  | .inPort _ | .outPort _ | .stc | .cmc | .cma | .nop | .hlt | .di | .ei => []
  | .undef08 | .undef10 | .undef18 | .undef20 | .undef28 | .undef30 | .undef38 | .undefCB _ | .undefD9 => []

/-- The addresses the transition `(instr)` may store to: those of the instruction fetched, none while halted or faulted. -/
def instrStores (s : State) : List Word :=
  if s.halted || s.faulted.isSome then []
  else
    match decode s.fetch.1 with
    | .ok (i, _) => storeAddresses i s
    | .error _ => []

/-- The addresses a step may store to: none for reset, the two of the push for interrupt entry, else those of the instruction. -/
def stepStores (s : State) : List Word :=
  match s.takeOffer.1 with
  | .reset => []
  | .request _ => if s.acceptEnabled then s.pushSlots else instrStores s.takeOffer.2
  | .quiet => instrStores s.takeOffer.2

/-! ### The flags of a result (42_arith8.md R140 to R142), on naturals -/

/-- Z, S and P of a result. -/
def ZspOf (v : Byte) (f : Flags) : Prop :=
  (f.z = true ↔ v.toNat = 0) ∧ (f.s = true ↔ 128 ≤ v.toNat) ∧ (f.p = true ↔ ((List.range 8).countP v.getLsbD) % 2 = 0)

/-- `r` and `f` are the result and the five flags of `a + v + c`. -/
def SumOf (a v : Byte) (c : Bool) (r : Byte) (f : Flags) : Prop :=
  r.toNat = (a.toNat + v.toNat + c.toNat) % 256 ∧ (f.cy = true ↔ 256 ≤ a.toNat + v.toNat + c.toNat) ∧
    (f.ac = true ↔ 16 ≤ a.toNat % 16 + v.toNat % 16 + c.toNat) ∧ ZspOf r f

/-- `r` and `f` are the result and the five flags of `a - v - c`: CY is the borrow, AC the absence of a borrow from bit 4. -/
def DifferenceOf (a v : Byte) (c : Bool) (r : Byte) (f : Flags) : Prop :=
  r.toNat = (a.toNat + 256 - v.toNat - c.toNat) % 256 ∧ (f.cy = true ↔ a.toNat < v.toNat + c.toNat) ∧
    (f.ac = true ↔ v.toNat % 16 + c.toNat ≤ a.toNat % 16) ∧ ZspOf r f

/-- An instruction of `len` bytes that writes A and the flags, each as `holds` says, and nothing else; `u` is the state after the
operand was read. -/
def WritesAAndFlags (s u t : State) (len : Word) (holds : Byte → Flags → Prop) : Prop :=
  holds t.regs.a t.flags ∧ SameRegsBut [.a] s t ∧ t.sp = s.sp ∧ t.pc = s.pc + len ∧
    SameControl s t ∧ SameEnvironment u t ∧ SameMemory s t

/-- An instruction of `len` bytes that writes flags only. -/
def WritesFlags (s u t : State) (len : Word) (holds : Flags → Prop) : Prop :=
  holds t.flags ∧ t.regs = s.regs ∧ t.sp = s.sp ∧ t.pc = s.pc + len ∧
    SameControl s t ∧ SameEnvironment u t ∧ SameMemory s t

/-- Control goes to `target`, SP becomes `sp`, the registers and flags are as before; memory and the environment are not spoken of. -/
def Transfers (s t : State) (sp target : Word) : Prop :=
  t.pc = target ∧ t.sp = sp ∧ t.regs = s.regs ∧ t.flags = s.flags ∧ SameControl s t

/-- The name of a register in source text (30_encoding.md R102). -/
def regName : Reg → String
  | .a => "A"
  | .b => "B"
  | .c => "C"
  | .d => "D"
  | .e => "E"
  | .h => "H"
  | .l => "L"

/-- The name of a pair in source text (30_encoding.md R102): that of its first register, or SP. -/
def pairName : RegPair → String
  | .bc => "B"
  | .de => "D"
  | .hl => "H"
  | .sp => "SP"

/-- The twelve undefined first bytes (30_encoding.md R97). -/
def undefinedBytes : List Byte := [0x08, 0x10, 0x18, 0x20, 0x28, 0x30, 0x38, 0xCB, 0xD9, 0xDD, 0xED, 0xFD]

end Sys2Proof.Machine
end

