-- ==== Sys2Proof/Certificates/Slice0/Obligations.lean ====
section
/-! DEFINITION. The statements for the provers. -/

section

open Sys2Proof Sys2Proof.Machine

/-! ### Memory, ports and the stack -/

/-- 20_memory.md R56: what a read gives, by the kind of the address; with no region in MEMMAP every address is RAM. -/
def Obligations.LoadByKind : Prop :=
  ∀ (s : State) (a : Word),
    (kindAt s.params a = .ram ∨ kindAt s.params a = .rom → s.load a = (s.byteAt a, s)) ∧
    (kindAt s.params a = .unpopulated → s.load a = s.draw) ∧
    (kindAt s.params a = .device → s.load a = (s.draw.1, s.draw.2.record (.deviceRead a s.draw.1))) ∧
    (s.params.memMap = [] → s.load a = (s.byteAt a, s)) ∧
    (s.load16 a).1 = joinBytes ((s.load a).2.load (a + 1)).1 (s.load a).1

/-- 20_memory.md R57: what a write does, by the kind of the address, and that nothing else changes. -/
def Obligations.StoreByKind : Prop :=
  ∀ (s : State) (a : Word) (v : Byte),
    StoresByte s (s.store a v) a v ∧ (s.store a v).regs = s.regs ∧ (s.store a v).flags = s.flags ∧ (s.store a v).sp = s.sp ∧
    (s.store a v).pc = s.pc ∧ KeepsControl s (s.store a v) ∧ (s.store a v).eiPending = s.eiPending ∧
    (s.params.memMap = [] → (s.store a v).byteAt a = v)

/-- A byte written is read back, every other byte is as before, and the list of cells keeps its canonical form. -/
def Obligations.MemoryReadAfterWrite : Prop :=
  ∀ (m : Memory) (a x : Nat) (v : Byte), Memory.wf m = true → a < 2 ^ 16 →
    memGet (memSet m a v) x = (if x = a then v else memGet m x) ∧ Memory.wf (memSet m a v) = true

/-- Two memories in canonical form that read alike at every address are the same list. -/
def Obligations.MemoryCanonical : Prop :=
  ∀ m n : Memory, Memory.wf m = true → Memory.wf n = true → (∀ a < 2 ^ 16, memGet m a = memGet n a) → m = n

/-- 41_transfer16.md R123: a pop right after a push, with RAM under both bytes, gives the word pushed and restores SP; and where the
two bytes lie. -/
def Obligations.PushThenPop : Prop :=
  ∀ (s : State) (w : Word), kindAt s.params (s.sp - 1) = .ram → kindAt s.params (s.sp - 2) = .ram →
    (s.push16 w).pop16.1 = w ∧ (s.push16 w).pop16.2.sp = s.sp ∧ (s.push16 w).sp = s.sp - 2 ∧
    (s.push16 w).byteAt (s.sp - 1) = hiByte w ∧ (s.push16 w).byteAt (s.sp - 2) = loByte w ∧
    (∀ a : Word, a ≠ s.sp - 1 → a ≠ s.sp - 2 → (s.push16 w).byteAt a = s.byteAt a) ∧
    ((s.push16 w).load16 (s.push16 w).sp).1 = w

/-! ### Encoding -/

/-- Every well-formed instruction's bytes decode to it, whatever follows them: no bit of an encoding is dropped. -/
def Obligations.DecodeEncode : Prop :=
  ∀ (i : Instr) (rest : List Byte), i.wellFormed = true → decode (encode i ++ rest) = .ok (i, rest)

/-- What the decoder gives is well-formed, and its bytes are exactly those it was read from: no two byte strings mean one
instruction. -/
def Obligations.EncodeDecode : Prop :=
  ∀ (bytes : List Byte) (i : Instr) (rest : List Byte),
    decode bytes = .ok (i, rest) → i.wellFormed = true ∧ bytes = encode i ++ rest

/-- 30_encoding.md R80, R100: every first byte belongs to exactly one row and, with its operand bytes there, decodes to an instruction
of the length the first byte alone gives; with fewer bytes there it is refused as truncated. -/
def Obligations.EveryFirstByteDecodes : Prop :=
  (∀ op : Byte, (opcodeRows.filter (fun r => r.has op)).length = 1) ∧
  ∀ (op b2 b3 : Byte) (rest : List Byte),
    (∃ i, decode (op :: b2 :: b3 :: rest) = .ok (i, (b2 :: b3 :: rest).drop (opLength op - 1))) ∧
    (∀ short : List Byte, short.length + 1 < opLength op → decode (op :: short) = .error (.truncated op)) ∧
    1 ≤ opLength op ∧ opLength op ≤ 3

/-- 30_encoding.md R81: the length of every defined first byte. -/
def Obligations.InstructionLengths : Prop :=
  ∀ op : Byte, op ∉ undefinedBytes →
    opLength op =
      (if op ∈ ([0x01, 0x11, 0x21, 0x31, 0x22, 0x2A, 0x32, 0x3A, 0xC3, 0xC2, 0xCA, 0xD2, 0xDA, 0xE2, 0xEA, 0xF2, 0xFA, 0xCD, 0xC4,
          0xCC, 0xD4, 0xDC, 0xE4, 0xEC, 0xF4, 0xFC] : List Byte) then 3
      else if op ∈ ([0x06, 0x0E, 0x16, 0x1E, 0x26, 0x2E, 0x36, 0x3E, 0xC6, 0xCE, 0xD6, 0xDE, 0xE6, 0xEE, 0xF6, 0xFE, 0xD3,
          0xDB] : List Byte) then 2
      else 1)

/-- Words written out from the encoding tables of 30_encoding.md decode to the instruction they stand for, one or more of each
family. -/
def Obligations.SampleWords : Prop :=
  decodeTableWord 8 0b01000001 = some (.movRR .b .c) ∧ decodeTableWord 16 0b00000101_00110110 = some (.mviM 5) ∧
  decodeTableWord 24 0b00010010_00110100_00110001 = some (.lxi .sp 0x1234) ∧ decodeTableWord 8 0b11110101 = some .pushPsw ∧
  decodeTableWord 8 0b10000110 = some .addM ∧ decodeTableWord 16 0b10000000_11111110 = some (.cpi 0x80) ∧
  decodeTableWord 8 0b00100111 = some .daa ∧ decodeTableWord 8 0b00101001 = some (.dad .hl) ∧
  decodeTableWord 24 0b00100000_00000000_11000010 = some (.jnz 0x2000) ∧ decodeTableWord 8 0b11111000 = some .rm ∧
  decodeTableWord 8 0b00011111 = some .rar ∧ decodeTableWord 16 0b00010000_11011011 = some (.inPort 0x10) ∧
  decodeTableWord 8 0b01110110 = some .hlt ∧ decodeTableWord 8 0b11111111 = some (.rst 7) ∧
  decodeTableWord 8 0b00001000 = some .undef08

/-! ### 8-bit transfers -/

/-- MOV r,r and MVI r (40_transfer8.md), with their encodings; nothing but the destination and PC changes, and `ei_pending` is cleared
(log 14). -/
def Obligations.MoveToRegister : Prop :=
  ∀ (dst src : Reg) (imm : Byte) (s : State),
    encode (.movRR dst src) = [0b01#2 ++ dst.code ++ src.code] ∧
    (∃ t, exec (.movRR dst src) s = .next t ∧ WritesReg s s t dst (s.getReg src) 1) ∧
    encode (.mviR dst imm) = [0b00#2 ++ dst.code ++ 0b110#3, imm] ∧
    (∃ t, exec (.mviR dst imm) s = .next t ∧ WritesReg s s t dst imm 2)

/-- MOV r,M, LDA and LDAX (40_transfer8.md), with their encodings; the address is computed before the register is written, and
`ei_pending` is cleared (log 14). -/
def Obligations.LoadToRegister : Prop :=
  ∀ (dst : Reg) (adr : Word) (pair : RegPair) (s : State), pair = .bc ∨ pair = .de →
    encode (.movRM dst) = [0b01#2 ++ dst.code ++ 0b110#3] ∧
    (∃ t, exec (.movRM dst) s = .next t ∧
      WritesReg s (s.load (joinBytes s.regs.h s.regs.l)).2 t dst (s.load (joinBytes s.regs.h s.regs.l)).1 1) ∧
    encode (.lda adr) = [0b00111010#8, loByte adr, hiByte adr] ∧
    (∃ t, exec (.lda adr) s = .next t ∧ WritesReg s (s.load adr).2 t .a (s.load adr).1 3) ∧
    encode (.ldax pair) = [0b00#2 ++ pair.code ++ 0b1010#4] ∧
    (∃ t, exec (.ldax pair) s = .next t ∧ WritesReg s (s.load (s.getPair pair)).2 t .a (s.load (s.getPair pair)).1 1)

/-- MOV M,r, MVI M, STA and STAX (40_transfer8.md), with their encodings: the byte goes to the address named and nowhere else, no
register or flag changes, and `ei_pending` is cleared (log 14). What a store does by the kind of the address is log 4 and log 18. -/
def Obligations.StoreFromRegister : Prop :=
  ∀ (src : Reg) (imm : Byte) (adr : Word) (pair : RegPair) (s : State), pair = .bc ∨ pair = .de →
    encode (.movMR src) = [0b01110#5 ++ src.code] ∧ encode (.mviM imm) = [0b00110110#8, imm] ∧
    encode (.sta adr) = [0b00110010#8, loByte adr, hiByte adr] ∧ encode (.stax pair) = [0b00#2 ++ pair.code ++ 0b0010#4] ∧
    ∀ p ∈ ([(.movMR src, joinBytes s.regs.h s.regs.l, s.getReg src, 1), (.mviM imm, joinBytes s.regs.h s.regs.l, imm, 2),
        (.sta adr, adr, s.regs.a, 3), (.stax pair, s.getPair pair, s.regs.a, 1)] : List (Instr × Word × Byte × Word)),
      ∃ t, exec p.1 s = .next t ∧ StoresByte s t p.2.1 p.2.2.1 ∧ t.regs = s.regs ∧ t.flags = s.flags ∧ t.sp = s.sp ∧
        t.pc = s.pc + p.2.2.2 ∧ SameControl s t

/-! ### 16-bit transfers -/

/-- 41_transfer16.md R122: LXI, with its encoding: both halves of the pair from the operand; for SP no 8-bit register changes. What
`ei_pending` becomes is EiDelay's. -/
def Obligations.LoadPairImmediate : Prop :=
  ∀ (pair : RegPair) (imm : Word) (s : State),
    encode (.lxi pair imm) = [0b00#2 ++ pair.code ++ 0b0001#4, loByte imm, hiByte imm] ∧
    ∃ t, exec (.lxi pair imm) s = .next t ∧ t.getPair pair = imm ∧ (∀ q : RegPair, q ≠ pair → t.getPair q = s.getPair q) ∧
      t.regs.a = s.regs.a ∧ t.flags = s.flags ∧ t.pc = s.pc + 3 ∧ KeepsControl s t ∧ SameEnvironment s t ∧ SameMemory s t

/-- 41_transfer16.md R120, R121: LHLD reads L at the address and H at the next one modulo 2^16; SHLD writes them there. That the low
byte comes first in time is the spec's own choice (20_memory.md, order of accesses; log 20), as is the wrap (log 21). -/
def Obligations.LoadStoreHlDirect : Prop :=
  ∀ (adr : Word) (s : State),
    (∃ t, exec (.lhld adr) s = .next t ∧ t.regs.l = (s.load adr).1 ∧ t.regs.h = ((s.load adr).2.load (adr + 1)).1 ∧
      SameRegsBut [.h, .l] s t ∧ t.flags = s.flags ∧ t.sp = s.sp ∧ t.pc = s.pc + 3 ∧ SameControl s t ∧
      SameEnvironment ((s.load adr).2.load (adr + 1)).2 t ∧ SameMemory s t) ∧
    (∃ t, exec (.shld adr) s = .next t ∧ StoresTwo s t adr s.regs.l (adr + 1) s.regs.h ∧ t.regs = s.regs ∧ t.flags = s.flags ∧
      t.sp = s.sp ∧ t.pc = s.pc + 3 ∧ SameControl s t)

/-- 41_transfer16.md R124, R125: PUSH of BC, DE, HL and of PSW: the high byte at SP - 1, the low byte at SP - 2, SP two lower, no
register or flag changed. The three fixed bits of the flag byte are the parameter PSW_FIXED (log 10); the order in time is log 20. -/
def Obligations.PushPair : Prop :=
  ∀ (pair : RegPair) (s : State), pair ≠ .sp →
    (∃ t, exec (.pushRp pair) s = .next t ∧
      StoresTwo s t (s.sp - 1) (hiByte (s.getPair pair)) (s.sp - 2) (loByte (s.getPair pair)) ∧
      Transfers s t (s.sp - 2) (s.pc + 1)) ∧
    (∃ t f, exec .pushPsw s = .next t ∧ StoresTwo s t (s.sp - 1) s.regs.a (s.sp - 2) f ∧ Transfers s t (s.sp - 2) (s.pc + 1) ∧
      f.getLsbD 7 = s.flags.s ∧ f.getLsbD 6 = s.flags.z ∧ f.getLsbD 5 = s.params.pswFixed.bit5 ∧ f.getLsbD 4 = s.flags.ac ∧
      f.getLsbD 3 = s.params.pswFixed.bit3 ∧ f.getLsbD 2 = s.flags.p ∧ f.getLsbD 1 = s.params.pswFixed.bit1 ∧
      f.getLsbD 0 = s.flags.cy)

/-- 41_transfer16.md R126, R127: POP of BC, DE, HL and of PSW: the low byte from SP, the high byte from SP + 1, SP two higher; POP PSW
writes all five flags from bits 7, 6, 4, 2 and 0. The order of the two reads in time is log 20. -/
def Obligations.PopPair : Prop :=
  ∀ (pair : RegPair) (s : State), pair ≠ .sp →
    (∃ t, exec (.popRp pair) s = .next t ∧
      t.getPair pair = joinBytes ((s.load s.sp).2.load (s.sp + 1)).1 (s.load s.sp).1 ∧
      (∀ q : RegPair, q ≠ pair → q ≠ .sp → t.getPair q = s.getPair q) ∧ t.regs.a = s.regs.a ∧ t.flags = s.flags ∧
      t.sp = s.sp + 2 ∧ t.pc = s.pc + 1 ∧ SameControl s t ∧ SameEnvironment ((s.load s.sp).2.load (s.sp + 1)).2 t ∧
      SameMemory s t) ∧
    (∃ t, exec .popPsw s = .next t ∧ t.regs.a = ((s.load s.sp).2.load (s.sp + 1)).1 ∧ SameRegsBut [.a] s t ∧
      t.flags.s = (s.load s.sp).1.getLsbD 7 ∧ t.flags.z = (s.load s.sp).1.getLsbD 6 ∧ t.flags.ac = (s.load s.sp).1.getLsbD 4 ∧
      t.flags.p = (s.load s.sp).1.getLsbD 2 ∧ t.flags.cy = (s.load s.sp).1.getLsbD 0 ∧
      t.sp = s.sp + 2 ∧ t.pc = s.pc + 1 ∧ SameControl s t ∧ SameEnvironment ((s.load s.sp).2.load (s.sp + 1)).2 t ∧
      SameMemory s t)

/-- POP PSW right after PUSH PSW, with RAM under the stack, restores A, the flags and SP; and PUSH PSW after POP PSW writes the popped
flag byte with its three free bits replaced by PSW_FIXED, for the default the byte `(f and D5) or 02` of 41_transfer16.md R127. -/
def Obligations.PswRoundTrip : Prop :=
  (∀ s : State, kindAt s.params (s.sp - 1) = .ram → kindAt s.params (s.sp - 2) = .ram →
    ∃ t u, exec .pushPsw s = .next t ∧ exec .popPsw t = .next u ∧ u.regs = s.regs ∧ u.flags = s.flags ∧ u.sp = s.sp) ∧
  (∀ s : State, kindAt s.params s.sp = .ram → kindAt s.params (s.sp + 1) = .ram →
    s.params.pswFixed = Config.Params.standard.pswFixed →
    ∃ t u, exec .popPsw s = .next t ∧ exec .pushPsw t = .next u ∧ u.sp = s.sp ∧
      u.byteAt s.sp = (s.byteAt s.sp &&& 0xD5) ||| 0x02 ∧ u.byteAt (s.sp + 1) = s.byteAt (s.sp + 1))

/-- 41_transfer16.md R128: XTHL. Both bytes are read before either is written; SP is unchanged. The order in time is log 20. -/
def Obligations.ExchangeStackTop : Prop :=
  ∀ s : State, ∃ t, exec .xthl s = .next t ∧ t.regs.l = (s.load s.sp).1 ∧ t.regs.h = ((s.load s.sp).2.load (s.sp + 1)).1 ∧
    StoresTwo ((s.load s.sp).2.load (s.sp + 1)).2 t (s.sp + 1) s.regs.h s.sp s.regs.l ∧ SameRegsBut [.h, .l] s t ∧
    t.flags = s.flags ∧ t.sp = s.sp ∧ t.pc = s.pc + 1 ∧ SameControl s t

/-- SPHL, PCHL and XCHG (41_transfer16.md), with their encodings; `ei_pending` is cleared (log 14). -/
def Obligations.MoveHl : Prop :=
  ∀ s : State,
    encode .sphl = [0b11111001#8] ∧
    (∃ t, exec .sphl s = .next t ∧ Transfers s t (joinBytes s.regs.h s.regs.l) (s.pc + 1) ∧ SameEnvironment s t ∧
      SameMemory s t) ∧
    encode .pchl = [0b11101001#8] ∧
    (∃ t, exec .pchl s = .next t ∧ Transfers s t s.sp (joinBytes s.regs.h s.regs.l) ∧ SameEnvironment s t ∧ SameMemory s t) ∧
    encode .xchg = [0b11101011#8] ∧
    (∃ t, exec .xchg s = .next t ∧ t.regs.h = s.regs.d ∧ t.regs.l = s.regs.e ∧ t.regs.d = s.regs.h ∧ t.regs.e = s.regs.l ∧
      SameRegsBut [.h, .l, .d, .e] s t ∧ t.flags = s.flags ∧ t.sp = s.sp ∧ t.pc = s.pc + 1 ∧ SameControl s t ∧
      SameEnvironment s t ∧ SameMemory s t)

/-- A term that no encoding admits (30_encoding.md R99) is refused by name, and the decoder gives none (the model's choice, log 25). -/
def Obligations.IllFormedRefused : Prop :=
  (∀ (i : Instr) (s : State), i.wellFormed = false → ∃ m, exec i s = .refused (.illFormed m)) ∧
  (∀ (i : Instr) (s : State) (m : String), exec i s = .refused (.illFormed m) → i.wellFormed = false)

/-! ### 8-bit arithmetic and logic -/

/-- ADD, ADC, ADI and ACI in every form: A and all five flags of the exact sum, with the old carry for ADC and ACI. The formulas of CY
and AC are the spec's from general knowledge (log 11). -/
def Obligations.AddToA : Prop :=
  ∀ (src : Reg) (imm : Byte) (s : State),
    let u := (s.load (joinBytes s.regs.h s.regs.l)).2
    let m := (s.load (joinBytes s.regs.h s.regs.l)).1
    ∀ p ∈ ([(.addR src, s, s.getReg src, false, 1), (.addM, u, m, false, 1), (.adcR src, s, s.getReg src, s.flags.cy, 1),
        (.adcM, u, m, s.flags.cy, 1), (.adi imm, s, imm, false, 2), (.aci imm, s, imm, s.flags.cy, 2)]
        : List (Instr × State × Byte × Bool × Word)),
      ∃ t, exec p.1 s = .next t ∧ WritesAAndFlags s p.2.1 t p.2.2.2.2 (SumOf s.regs.a p.2.2.1 p.2.2.2.1)

/-- SUB, SBB, SUI and SBI in every form: A and all five flags of the difference, with the old borrow for SBB and SBI. The formulas of
CY and AC are the spec's from general knowledge (log 11). -/
def Obligations.SubtractFromA : Prop :=
  ∀ (src : Reg) (imm : Byte) (s : State),
    let u := (s.load (joinBytes s.regs.h s.regs.l)).2
    let m := (s.load (joinBytes s.regs.h s.regs.l)).1
    ∀ p ∈ ([(.subR src, s, s.getReg src, false, 1), (.subM, u, m, false, 1), (.sbbR src, s, s.getReg src, s.flags.cy, 1),
        (.sbbM, u, m, s.flags.cy, 1), (.sui imm, s, imm, false, 2), (.sbi imm, s, imm, s.flags.cy, 2)]
        : List (Instr × State × Byte × Bool × Word)),
      ∃ t, exec p.1 s = .next t ∧ WritesAAndFlags s p.2.1 t p.2.2.2.2 (DifferenceOf s.regs.a p.2.2.1 p.2.2.2.1)

/-- CMP and CPI: the flags of the subtraction, no register; so Z says that the operands are equal and CY that A is below. The
formulas are the spec's from general knowledge (log 11). -/
def Obligations.CompareWithA : Prop :=
  ∀ (src : Reg) (imm : Byte) (s : State),
    let u := (s.load (joinBytes s.regs.h s.regs.l)).2
    let m := (s.load (joinBytes s.regs.h s.regs.l)).1
    ∀ p ∈ ([(.cmpR src, s, s.getReg src, 1), (.cmpM, u, m, 1), (.cpi imm, s, imm, 2)] : List (Instr × State × Byte × Word)),
      ∃ t, exec p.1 s = .next t ∧
        WritesFlags s p.2.1 t p.2.2.2 (fun f =>
          (∃ r, DifferenceOf s.regs.a p.2.2.1 false r f) ∧ (f.z = true ↔ s.regs.a = p.2.2.1) ∧
            (f.cy = true ↔ s.regs.a.toNat < p.2.2.1.toNat))

/-- INR r and DCR r: the register wraps modulo 2^8, Z, S, P and AC as for adding or subtracting one, CY unchanged; no other register.
The formula of AC is the spec's from general knowledge (log 11). -/
def Obligations.StepRegister : Prop :=
  ∀ (r : Reg) (s : State),
    (∃ t f, exec (.inrR r) s = .next t ∧ SumOf (s.getReg r) 1 false (t.getReg r) f ∧ t.flags = { f with cy := s.flags.cy } ∧
      SameRegsBut [r] s t ∧ t.sp = s.sp ∧ t.pc = s.pc + 1 ∧ SameControl s t ∧ SameEnvironment s t ∧ SameMemory s t) ∧
    (∃ t f, exec (.dcrR r) s = .next t ∧ DifferenceOf (s.getReg r) 1 false (t.getReg r) f ∧
      t.flags = { f with cy := s.flags.cy } ∧
      SameRegsBut [r] s t ∧ t.sp = s.sp ∧ t.pc = s.pc + 1 ∧ SameControl s t ∧ SameEnvironment s t ∧ SameMemory s t)

/-- INR M and DCR M: the byte at HL is read once and its successor or predecessor written there, with the flags of the register
forms; no register changes. The formula of AC is log 11, read before write is log 20. -/
def Obligations.StepMemory : Prop :=
  ∀ s : State,
    let u := (s.load (joinBytes s.regs.h s.regs.l)).2
    let m := (s.load (joinBytes s.regs.h s.regs.l)).1
    (∃ t f v, exec .inrM s = .next t ∧ SumOf m 1 false v f ∧ t.flags = { f with cy := s.flags.cy } ∧
      StoresByte u t (joinBytes s.regs.h s.regs.l) v ∧ t.regs = s.regs ∧ t.sp = s.sp ∧ t.pc = s.pc + 1 ∧ SameControl s t) ∧
    (∃ t f v, exec .dcrM s = .next t ∧ DifferenceOf m 1 false v f ∧ t.flags = { f with cy := s.flags.cy } ∧
      StoresByte u t (joinBytes s.regs.h s.regs.l) v ∧ t.regs = s.regs ∧ t.sp = s.sp ∧ t.pc = s.pc + 1 ∧ SameControl s t)

/-- ANA and ANI: A and the flags; CY is cleared, AC as AC_AND_POLICY says. That CY is cleared and what AC becomes are the spec's from
general knowledge (log 9, log 11). -/
def Obligations.AndWithA : Prop :=
  ∀ (src : Reg) (imm : Byte) (s : State),
    let u := (s.load (joinBytes s.regs.h s.regs.l)).2
    let m := (s.load (joinBytes s.regs.h s.regs.l)).1
    ∀ p ∈ ([(.anaR src, s, s.getReg src, 1), (.anaM, u, m, 1), (.ani imm, s, imm, 2)] : List (Instr × State × Byte × Word)),
      ∃ t, exec p.1 s = .next t ∧
        WritesAAndFlags s p.2.1 t p.2.2.2 (fun r f =>
          (∀ k < 8, r.getLsbD k = (s.regs.a.getLsbD k && p.2.2.1.getLsbD k)) ∧ ZspOf r f ∧ f.cy = false ∧
            (s.params.acAnd = .orBit3 → f.ac = (s.regs.a.getLsbD 3 || p.2.2.1.getLsbD 3)) ∧
            (s.params.acAnd = .zero → f.ac = false))

/-- XRA, XRI, ORA and ORI: A and the flags; CY and AC are cleared, which is the spec's from general knowledge (log 11). -/
def Obligations.XorOrWithA : Prop :=
  ∀ (src : Reg) (imm : Byte) (s : State),
    let u := (s.load (joinBytes s.regs.h s.regs.l)).2
    let m := (s.load (joinBytes s.regs.h s.regs.l)).1
    (∀ p ∈ ([(.xraR src, s, s.getReg src, 1), (.xraM, u, m, 1), (.xri imm, s, imm, 2)] : List (Instr × State × Byte × Word)),
      ∃ t, exec p.1 s = .next t ∧
        WritesAAndFlags s p.2.1 t p.2.2.2 (fun r f =>
          (∀ k < 8, r.getLsbD k = (s.regs.a.getLsbD k != p.2.2.1.getLsbD k)) ∧ ZspOf r f ∧ f.cy = false ∧ f.ac = false)) ∧
    (∀ p ∈ ([(.oraR src, s, s.getReg src, 1), (.oraM, u, m, 1), (.ori imm, s, imm, 2)] : List (Instr × State × Byte × Word)),
      ∃ t, exec p.1 s = .next t ∧
        WritesAAndFlags s p.2.1 t p.2.2.2 (fun r f =>
          (∀ k < 8, r.getLsbD k = (s.regs.a.getLsbD k || p.2.2.1.getLsbD k)) ∧ ZspOf r f ∧ f.cy = false ∧ f.ac = false))

/-- DAA in the two-step form of 43_logic_cmp_daa.md: first 6 is added if AC is set or the low digit exceeds 9, then 0x60 if CY is set
or the high digit exceeds 9 by then. The algorithm is the spec's from general knowledge (log 12). -/
def Obligations.DecimalAdjust : Prop :=
  ∀ s : State,
    let a := s.regs.a.toNat
    let low := s.flags.ac = true ∨ 9 < a % 16
    let a1 := if s.flags.ac || decide (9 < a % 16) then a + 6 else a
    let high := s.flags.cy = true ∨ 9 < a1 / 16
    let a2 := if s.flags.cy || decide (9 < a1 / 16) then a1 + 96 else a1
    ∃ t, exec .daa s = .next t ∧
      WritesAAndFlags s s t 1 (fun r f =>
        r.toNat = a2 % 256 ∧ (f.cy = true ↔ high) ∧ (f.ac = true ↔ low ∧ 9 < a % 16) ∧ ZspOf r f)

/-- DAA does what it is for: ADC of two bytes that hold two decimal digits each, then DAA, leaves in A the last two decimal digits of
the sum with the old carry, and in CY whether it reached 100. DAA is the spec's from general knowledge (log 12). -/
def Obligations.DecimalAddition : Prop :=
  ∀ (r : Reg) (s : State),
    s.regs.a.toNat % 16 ≤ 9 → s.regs.a.toNat / 16 ≤ 9 → (s.getReg r).toNat % 16 ≤ 9 → (s.getReg r).toNat / 16 ≤ 9 →
    let value := fun b : Byte => b.toNat / 16 * 10 + b.toNat % 16
    let sum := value s.regs.a + value (s.getReg r) + s.flags.cy.toNat
    ∃ t w, exec (.adcR r) s = .next t ∧ exec .daa t = .next w ∧
      w.regs.a.toNat % 16 ≤ 9 ∧ w.regs.a.toNat / 16 ≤ 9 ∧ value w.regs.a = sum % 100 ∧ (w.flags.cy = true ↔ 100 ≤ sum)

/-! ### 16-bit arithmetic -/

/-- DAD: HL is the sum modulo 2^16, CY its carry, every other flag, every other register and SP unchanged. That CY is the carry out of
bit 15 is the spec's from general knowledge (log 11). -/
def Obligations.AddPairToHl : Prop :=
  ∀ (pair : RegPair) (s : State),
    let sum := (joinBytes s.regs.h s.regs.l).toNat + (s.getPair pair).toNat
    ∃ t, exec (.dad pair) s = .next t ∧ t.regs.h.toNat * 256 + t.regs.l.toNat = sum % 65536 ∧
      (t.flags.cy = true ↔ 65536 ≤ sum) ∧ t.flags.s = s.flags.s ∧ t.flags.z = s.flags.z ∧ t.flags.ac = s.flags.ac ∧
      t.flags.p = s.flags.p ∧ SameRegsBut [.h, .l] s t ∧ t.sp = s.sp ∧ t.pc = s.pc + 1 ∧ SameControl s t ∧
      SameEnvironment s t ∧ SameMemory s t

/-- INX and DCX: the pair modulo 2^16 (log 21), no flag, no other register; and each undoes the other. -/
def Obligations.StepPair : Prop :=
  ∀ (pair : RegPair) (s : State),
    (∃ t, exec (.inx pair) s = .next t ∧ (t.getPair pair).toNat = ((s.getPair pair).toNat + 1) % 65536 ∧
      (∀ q : RegPair, q ≠ pair → t.getPair q = s.getPair q) ∧ t.regs.a = s.regs.a ∧ t.flags = s.flags ∧ t.pc = s.pc + 1 ∧
      SameControl s t ∧ SameEnvironment s t ∧ SameMemory s t ∧
      ∃ u, exec (.dcx pair) t = .next u ∧ u.regs = s.regs ∧ u.sp = s.sp) ∧
    (∃ t, exec (.dcx pair) s = .next t ∧ (t.getPair pair).toNat = ((s.getPair pair).toNat + 65535) % 65536 ∧
      (∀ q : RegPair, q ≠ pair → t.getPair q = s.getPair q) ∧ t.regs.a = s.regs.a ∧ t.flags = s.flags ∧ t.pc = s.pc + 1 ∧
      SameControl s t ∧ SameEnvironment s t ∧ SameMemory s t ∧
      ∃ u, exec (.inx pair) t = .next u ∧ u.regs = s.regs ∧ u.sp = s.sp)

/-! ### Control transfer -/

/-- 45_control.md R201, R204 to R211: JMP and the eight conditional jumps, with their encodings: the target if the flag named is as
the condition says, else the next instruction, and nothing but PC changes. What `ei_pending` becomes is EiDelay's. -/
def Obligations.Jumps : Prop :=
  ∀ (adr : Word) (s : State),
    ∀ p ∈ ([(.jmp adr, 0b11000011, true), (.jnz adr, 0b11000010, !s.flags.z), (.jz adr, 0b11001010, s.flags.z),
        (.jnc adr, 0b11010010, !s.flags.cy), (.jc adr, 0b11011010, s.flags.cy), (.jpo adr, 0b11100010, !s.flags.p),
        (.jpe adr, 0b11101010, s.flags.p), (.jp adr, 0b11110010, !s.flags.s), (.jm adr, 0b11111010, s.flags.s)]
        : List (Instr × Byte × Bool)),
      encode p.1 = [p.2.1, loByte adr, hiByte adr] ∧
      ∃ t, exec p.1 s = .next t ∧ t.pc = (if p.2.2 then adr else s.pc + 3) ∧ t.sp = s.sp ∧ t.regs = s.regs ∧ t.flags = s.flags ∧
        KeepsControl s t ∧ SameEnvironment s t ∧ SameMemory s t

/-- CALL and the eight conditional calls: taken, the address of the next instruction goes to the two bytes below SP and control to
the target; not taken, nothing but PC changes. That the high byte is written first is log 20. -/
def Obligations.Calls : Prop :=
  ∀ (adr : Word) (s : State),
    ∀ p ∈ ([(.call adr, true), (.cnz adr, !s.flags.z), (.cz adr, s.flags.z), (.cnc adr, !s.flags.cy), (.cc adr, s.flags.cy),
        (.cpo adr, !s.flags.p), (.cpe adr, s.flags.p), (.cp adr, !s.flags.s), (.cm adr, s.flags.s)] : List (Instr × Bool)),
      ∃ t, exec p.1 s = .next t ∧
        if p.2 then StoresTwo s t (s.sp - 1) (hiByte (s.pc + 3)) (s.sp - 2) (loByte (s.pc + 3)) ∧ Transfers s t (s.sp - 2) adr
        else Transfers s t s.sp (s.pc + 3) ∧ SameEnvironment s t ∧ SameMemory s t

/-- RET and the eight conditional returns: taken, PC from the two bytes at SP and SP + 1, SP two higher; not taken, nothing but PC
changes. INTE is not touched. The order of the two reads in time is log 20. -/
def Obligations.Returns : Prop :=
  ∀ s : State,
    ∀ p ∈ ([(.ret, true), (.rnz, !s.flags.z), (.rz, s.flags.z), (.rnc, !s.flags.cy), (.rc, s.flags.cy), (.rpo, !s.flags.p),
        (.rpe, s.flags.p), (.rp, !s.flags.s), (.rm, s.flags.s)] : List (Instr × Bool)),
      ∃ t, exec p.1 s = .next t ∧ SameMemory s t ∧
        if p.2 then
          Transfers s t (s.sp + 2) (joinBytes ((s.load s.sp).2.load (s.sp + 1)).1 (s.load s.sp).1) ∧
            SameEnvironment ((s.load s.sp).2.load (s.sp + 1)).2 t
        else Transfers s t s.sp (s.pc + 1) ∧ SameEnvironment s t

/-- 47_other.md R249: RST n is a one-byte call to 8 * n, with its encoding; INTE is not touched. That the high byte is written first
is log 20. -/
def Obligations.Restart : Prop :=
  ∀ (n : BitVec 3) (s : State),
    encode (.rst n) = [0b11#2 ++ n ++ 0b111#3] ∧
    ∃ t, exec (.rst n) s = .next t ∧ StoresTwo s t (s.sp - 1) (hiByte (s.pc + 1)) (s.sp - 2) (loByte (s.pc + 1)) ∧
      Transfers s t (s.sp - 2) (BitVec.ofNat 16 (8 * n.toNat))

/-- RET undoes CALL and RST: with RAM under the stack, the called code's RET comes back to the instruction after the call with SP,
registers, flags and every other byte of memory as they were. -/
def Obligations.CallThenReturn : Prop :=
  ∀ (adr : Word) (n : BitVec 3) (s : State), kindAt s.params (s.sp - 1) = .ram → kindAt s.params (s.sp - 2) = .ram →
    ∀ p ∈ ([(.call adr, 3), (.rst n, 1)] : List (Instr × Word)),
      ∃ t u, exec p.1 s = .next t ∧ exec .ret t = .next u ∧ Transfers s u s.sp (s.pc + p.2) ∧ SameEnvironment s u ∧
        ∀ a : Word, a ≠ s.sp - 1 → a ≠ s.sp - 2 → u.byteAt a = s.byteAt a

/-! ### Rotates -/

/-- The four rotates of A bit by bit (46_rotate.md), with their encodings; CY is the only flag written, and `ei_pending` is cleared
(log 14). -/
def Obligations.Rotates : Prop :=
  ∀ s : State,
    let a := s.regs.a
    encode .rlc = [0b00000111#8] ∧ encode .rrc = [0b00001111#8] ∧ encode .ral = [0b00010111#8] ∧ encode .rar = [0b00011111#8] ∧
    ∀ p ∈ ([(.rlc, fun k => if k = 0 then a.getLsbD 7 else a.getLsbD (k - 1), a.getLsbD 7),
        (.rrc, fun k => if k = 7 then a.getLsbD 0 else a.getLsbD (k + 1), a.getLsbD 0),
        (.ral, fun k => if k = 0 then s.flags.cy else a.getLsbD (k - 1), a.getLsbD 7),
        (.rar, fun k => if k = 7 then s.flags.cy else a.getLsbD (k + 1), a.getLsbD 0)] : List (Instr × (Nat → Bool) × Bool)),
      ∃ t, exec p.1 s = .next t ∧
        WritesAAndFlags s s t 1 (fun r f => (∀ k < 8, r.getLsbD k = p.2.1 k) ∧ f = { s.flags with cy := p.2.2 })

/-- RAR undoes RAL and RAL undoes RAR on A and CY; RRC and RLC undo each other on A. -/
def Obligations.RotatesUndo : Prop :=
  ∀ s : State,
    (∃ t u, exec .ral s = .next t ∧ exec .rar t = .next u ∧ u.regs = s.regs ∧ u.flags = s.flags) ∧
    (∃ t u, exec .rar s = .next t ∧ exec .ral t = .next u ∧ u.regs = s.regs ∧ u.flags = s.flags) ∧
    (∃ t u, exec .rlc s = .next t ∧ exec .rrc t = .next u ∧ u.regs = s.regs) ∧
    (∃ t u, exec .rrc s = .next t ∧ exec .rlc t = .next u ∧ u.regs = s.regs)

/-! ### Other instructions -/

/-- IN and OUT: IN takes the environment's next answer into A and records it; OUT records A. Nothing else changes but PC. Where no
answer is listed the byte is a free value of which nothing is said (log 5). -/
def Obligations.InputOutput : Prop :=
  ∀ (port : Byte) (s : State),
    (∃ t, exec (.inPort port) s = .next t ∧ SameRegsBut [.a] s t ∧ t.flags = s.flags ∧ t.sp = s.sp ∧ t.pc = s.pc + 2 ∧
      SameControl s t ∧ SameMemory s t ∧ t.history = s.history ++ [.inp port t.regs.a] ∧ t.draws = s.draws + 1 ∧
      t.inputs = s.inputs.tail ∧ ∀ v rest, s.inputs = v :: rest → t.regs.a = v) ∧
    (∃ t, exec (.outPort port) s = .next t ∧ Transfers s t s.sp (s.pc + 2) ∧ SameMemory s t ∧
      t.history = s.history ++ [.out port s.regs.a] ∧ t.inputs = s.inputs ∧ t.draws = s.draws)

/-- 47_other.md R242, R243, R244, R245: STC, CMC, CMA and NOP, with their encodings; that `ei_pending` is cleared, by these as by every
instruction other than EI, is R245's (log 14). -/
def Obligations.CarryComplementNop : Prop :=
  ∀ s : State,
    encode .stc = [0b00110111#8] ∧ encode .cmc = [0b00111111#8] ∧ encode .cma = [0b00101111#8] ∧ encode .nop = [0b00000000#8] ∧
    (∃ t, exec .stc s = .next t ∧ WritesFlags s s t 1 (fun f => f = { s.flags with cy := true })) ∧
    (∃ t, exec .cmc s = .next t ∧ WritesFlags s s t 1 (fun f => f = { s.flags with cy := !s.flags.cy })) ∧
    (∃ t, exec .cma s = .next t ∧
      WritesAAndFlags s s t 1 (fun r f => (∀ k < 8, r.getLsbD k = !s.regs.a.getLsbD k) ∧ f = s.flags)) ∧
    (∃ t, exec .nop s = .next t ∧ WritesFlags s s t 1 (fun f => f = s.flags))

/-- HLT, DI and EI: each changes its one bit of control state and PC; EI alone leaves `ei_pending` set. That HLT moves PC on first and
that EI is delayed are the spec's from general knowledge (log 14). -/
def Obligations.HaltAndInterruptEnable : Prop :=
  ∀ s : State,
    ∀ p ∈ ([(.hlt, s.inte, true, false), (.di, false, s.halted, false), (.ei, true, s.halted, true)]
        : List (Instr × Bool × Bool × Bool)),
      ∃ t, exec p.1 s = .next t ∧ t.inte = p.2.1 ∧ t.halted = p.2.2.1 ∧ t.eiPending = p.2.2.2 ∧ t.pc = s.pc + 1 ∧
        t.regs = s.regs ∧ t.flags = s.flags ∧ t.sp = s.sp ∧ t.faulted = s.faulted ∧ t.params = s.params ∧ t.offers = s.offers ∧
        SameEnvironment s t ∧ SameMemory s t

/-! ### The undefined first bytes -/

/-- Under UNDOC_POLICY = fault, the spec's default, each undefined first byte raises the model's fault with the byte and its address
(60_exceptions.md R260; log 8). -/
def Obligations.UndefinedBytesFault : Prop :=
  ∀ (adr : Word) (s : State), s.params.undoc = .fault →
    ∀ p ∈ ([(.undef08, 0x08), (.undef10, 0x10), (.undef18, 0x18), (.undef20, 0x20), (.undef28, 0x28), (.undef30, 0x30),
        (.undef38, 0x38), (.undefCB adr, 0xCB), (.undefD9, 0xD9), (.undefDD adr, 0xDD), (.undefED adr, 0xED),
        (.undefFD adr, 0xFD)] : List (Instr × Byte)),
      exec p.1 s = .fault (.undefinedOpcode p.2 s.pc)

/-- Under UNDOC_POLICY = alias, each undefined first byte runs as the instruction the alias table of 30_encoding.md R97 names. The
table is general knowledge (log 8); what those instructions do is said in the statements about them. -/
def Obligations.UndefinedBytesAlias : Prop :=
  ∀ (adr : Word) (s : State), s.params.undoc = .alias_ →
    ∀ p ∈ ([(.undef08, .nop), (.undef10, .nop), (.undef18, .nop), (.undef20, .nop), (.undef28, .nop), (.undef30, .nop),
        (.undef38, .nop), (.undefCB adr, .jmp adr), (.undefD9, .ret), (.undefDD adr, .call adr), (.undefED adr, .call adr),
        (.undefFD adr, .call adr)] : List (Instr × Instr)),
      ∃ t, exec p.1 s = .next t ∧ exec p.2 s = .next t

/-! ### The step -/

/-- A step of a machine that is neither faulted nor halted and accepts no interrupt runs the instruction its bytes at PC decode to, on
the state with the boundary's offer taken off. The first clause is for addresses that answer with the stored byte, the second for
any, with the state after the fetch. -/
def Obligations.StepRunsDecoded : Prop :=
  ∀ (s : State) (i : Instr) (rest : List Byte), s.faulted = none → s.halted = false →
    (s.takeOffer.1 = .quiet ∨ ∃ n, s.takeOffer.1 = .request n ∧ s.acceptEnabled = false) →
    (s.storedAt s.pc = true → decode (s.bytesAt s.pc) = .ok (i, rest) → step s = exec i s.takeOffer.2) ∧
    (decode s.takeOffer.2.fetch.1 = .ok (i, rest) → step s = exec i s.takeOffer.2.fetch.2)

/-- A step at an undefined first byte under UNDOC_POLICY = fault stops with the fault; the transition takes the offer, reads the first
byte, sets the mark and changes nothing else, and the marked configuration faults again until a reset (60_exceptions.md R260, R274,
R275; log 8). That the read's draw and event stay is DEDUCED (log 29); from RAM and ROM there are none. -/
def Obligations.StepFaultsAtUndefinedByte : Prop :=
  ∀ s : State, s.faulted = none → s.halted = false →
    (s.takeOffer.1 = .quiet ∨ ∃ n, s.takeOffer.1 = .request n ∧ s.acceptEnabled = false) → s.params.undoc = .fault →
    let op := (s.takeOffer.2.load s.pc).1
    op ∈ undefinedBytes →
    step s = .fault (.undefinedOpcode op s.pc) ∧
    s.transition = { (s.takeOffer.2.load s.pc).2 with faulted := some (.undefinedOpcode op s.pc) } ∧
    (kindAt s.params s.pc = .ram ∨ kindAt s.params s.pc = .rom →
      op = s.byteAt s.pc ∧ s.transition = { s.takeOffer.2 with faulted := some (.undefinedOpcode op s.pc) }) ∧
    (s.transition.takeOffer.1 ≠ .reset →
      step s.transition = .fault (.undefinedOpcode op s.pc) ∧ s.transition.transition = s.transition.takeOffer.2)

/-- Interrupt entry (60_exceptions.md R266, R267, from general knowledge: log 15): INTE and the halt are cleared, PC as it stands is
pushed, control goes to 8 * n, and nothing else changes but that the request is taken (log 6). -/
def Obligations.InterruptEntry : Prop :=
  ∀ (s : State) (n : BitVec 3), s.takeOffer.1 = .request n → s.inte = true → s.eiPending = false → s.faulted = none →
    ∃ t, step s = .next t ∧ StoresTwo s.takeOffer.2 t (s.sp - 1) (hiByte s.pc) (s.sp - 2) (loByte s.pc) ∧ t.sp = s.sp - 2 ∧
      t.pc = BitVec.ofNat 16 (8 * n.toNat) ∧ t.inte = false ∧ t.halted = false ∧ t.eiPending = false ∧ t.regs = s.regs ∧
      t.flags = s.flags ∧ t.faulted = none ∧ t.params = s.params ∧ t.offers = s.offers.tail

/-- A request with INTE clear, or right after EI, or in a faulted machine is not accepted: the step is the one of a boundary with no
request, and the request is lost (60_exceptions.md R265, R266; log 15). The same holds where the list of offers has run out. -/
def Obligations.RequestNotAccepted : Prop :=
  ∀ s : State, s.takeOffer.1 ≠ .reset → s.inte = false ∨ s.eiPending = true ∨ s.faulted ≠ none →
    step s = step { s with offers := .quiet :: s.offers.tail }

/-- `ei_pending` after an instruction says that it was EI; so acceptance is never enabled right after EI and, with INTE set and no
fault, always after the instruction that follows it (the EI delay of one instruction, 47_other.md R248; log 14). -/
def Obligations.EiDelay : Prop :=
  ∀ (i : Instr) (s t : State), exec i s = .next t →
    (t.eiPending = true ↔ i = .ei) ∧ (i = .ei → t.inte = true ∧ t.acceptEnabled = false) ∧
    (i ≠ .ei → t.inte = true → t.faulted = none → t.acceptEnabled = true)

/-- Interrupt entry followed by RET, with RAM under the stack, comes back to the interrupted instruction: PC, SP, registers and flags
as before, INTE clear and the halt left (60_exceptions.md R267, R268; log 15). -/
def Obligations.InterruptThenReturn : Prop :=
  ∀ (s : State) (n : BitVec 3), s.takeOffer.1 = .request n → s.inte = true → s.eiPending = false → s.faulted = none →
    kindAt s.params (s.sp - 1) = .ram → kindAt s.params (s.sp - 2) = .ram →
    ∃ t u, step s = .next t ∧ exec .ret t = .next u ∧ u.pc = s.pc ∧ u.sp = s.sp ∧ u.regs = s.regs ∧ u.flags = s.flags ∧
      u.inte = false ∧ u.halted = false ∧ SameEnvironment s.takeOffer.2 u ∧
      ∀ a : Word, a ≠ s.sp - 1 → a ≠ s.sp - 2 → u.byteAt a = s.byteAt a

/-- A halted machine that accepts nothing changes nothing but the offer it lets pass; with INTE clear and no reset offered it is still
the same after any number of transitions (47_other.md R246, 70_reset_and_hazards.md R295; log 14, log 16). -/
def Obligations.HaltedStays : Prop :=
  (∀ s : State, s.halted = true → s.faulted = none → (s.takeOffer.1 = .quiet ∨ ∃ n, s.takeOffer.1 = .request n ∧ s.inte = false) →
    step s = .next s.takeOffer.2) ∧
  (∀ (s : State) (k : Nat), s.final = true → (∀ o ∈ s.offers, o ≠ .reset) →
    s.run k = { s with offers := s.offers.drop k } ∧ (s.run k).final = true)

/-- Reset of a machine that has run (70_reset_and_hazards.md R290): in any configuration it overrides everything; PC, INTE, halted and
`ei_pending` as RESET_STATE says, the mark cleared, memory and history kept. Each register, SP and each flag takes the value that
RESET_STATE gives it, and is not spoken of where RESET_STATE leaves it unspecified (log 7). -/
def Obligations.ResetOfRunningMachine : Prop :=
  ∀ (s : State) (rest : List Offer), s.offers = .reset :: rest →
    let r := s.params.resetState
    ∃ t, step s = .next t ∧ t.pc = r.pc ∧ t.inte = r.inte ∧ t.halted = r.halted ∧ t.eiPending = r.eiPending ∧ t.faulted = none ∧
      SameMemory s t ∧ t.history = s.history ∧ t.inputs = s.inputs ∧ t.params = s.params ∧ t.offers = rest ∧
      (s.params = Config.Params.standard → t.pc = 0x0000 ∧ t.inte = false ∧ t.halted = false ∧ t.eiPending = false) ∧
      (∀ p ∈ ([(.a, r.a), (.b, r.b), (.c, r.c), (.d, r.d), (.e, r.e), (.h, r.h), (.l, r.l)] : List (Reg × Option Byte)),
        ∀ v, p.2 = some v → t.getReg p.1 = v) ∧
      (∀ w, r.sp = some w → t.sp = w) ∧
      (∀ p ∈ ([(t.flags.s, r.s), (t.flags.z, r.z), (t.flags.ac, r.ac), (t.flags.p, r.p), (t.flags.cy, r.cy)]
          : List (Bool × Option Bool)), ∀ b, p.2 = some b → p.1 = b)

/-- The state after power-on where 10_state.md R40 and 00_scope.md R5 give a value, which the spec has from general knowledge; the
registers, the flags, SP and the memory are the model's choice (log 1, log 2) and are not spoken of. -/
def Obligations.PowerOnState : Prop :=
  State.reset.pc = 0x0000 ∧ State.reset.inte = false ∧ State.reset.halted = false ∧ State.reset.eiPending = false ∧
  State.reset.faulted = none ∧ State.reset.history = [] ∧ State.reset.params.undoc = .fault ∧
  State.reset.params.acAnd = .orBit3 ∧ State.reset.params.pswFixed = { bit5 := false, bit3 := false, bit1 := true } ∧
  ∀ a : Word, kindAt State.reset.params a = .ram

/-- The invariant holds at reset. -/
def Obligations.InvAtReset : Prop := State.reset.Inv

/-- Every step keeps the invariant: canonical memory, `ei_pending` only with INTE and never while halted, a legal RESET_STATE. -/
def Obligations.StepKeepsInv : Prop := ∀ s t : State, s.Inv → step s = .next t → t.Inv

/-- The history is append-only (60_exceptions.md R275). The other clauses are about the model's own form of the parameters and of the
environment (log 3, log 5, log 6): the parameters never change, the counter of free values never goes back, one offer is taken, and
an answer, once taken, does not return. -/
def Obligations.StepKeepsRecord : Prop :=
  ∀ s t : State, step s = .next t →
    (∃ events, t.history = s.history ++ events) ∧ t.params = s.params ∧ s.draws ≤ t.draws ∧ t.offers = s.offers.tail ∧
      ∃ k, t.inputs = s.inputs.drop k

/-- Memory changes only where it is stored to: an instruction that runs changes no byte outside the addresses it stores to (HL, the
address, the pair, the two bytes of the stack), a step none outside those of the instruction it runs or of the interrupt's push, and
no step, whatever the instruction, interrupt or reset, changes a byte at an address that is not RAM. -/
def Obligations.OnlyRamChanges : Prop :=
  (∀ (i : Instr) (s t : State), exec i s = .next t → ∀ x : Word, x ∉ storeAddresses i s → t.byteAt x = s.byteAt x) ∧
  ∀ s t : State, step s = .next t →
    (∀ x : Word, x ∉ stepStores s → t.byteAt x = s.byteAt x) ∧
    ∀ a : Word, kindAt s.params a ≠ .ram → t.byteAt a = s.byteAt a

/-- The machine never refuses a step, and a machine that is not marked faulted stops only at an undefined first byte, under the fault
policy (60_exceptions.md R261; that the hardware has no exception of its own is from general knowledge, log 26). -/
def Obligations.StepStopsOnlyAtUndefined : Prop :=
  ∀ s : State, (∀ r, step s ≠ .refused r) ∧
    (s.faulted = none → ∀ f, step s = .fault f →
      s.params.undoc = .fault ∧ s.halted = false ∧ ∃ op ∈ undefinedBytes, f = .undefinedOpcode op s.pc)

/-- A step that is no reset turns INTE on only by running EI, and halts the machine only by running HLT (10_state.md R33, R34). -/
def Obligations.InteOnlyByEi : Prop :=
  ∀ s t : State, step s = .next t → s.takeOffer.1 ≠ .reset →
    (s.inte = false → t.inte = true → ∃ rest, decode s.takeOffer.2.fetch.1 = .ok (.ei, rest)) ∧
    (s.halted = false → t.halted = true → ∃ rest, decode s.takeOffer.2.fetch.1 = .ok (.hlt, rest))

/-! ### The assembler -/

/-- Which instruction each mnemonic of 30_encoding.md R107 gives with each of its operand forms (R102, R103), for operands with a value
that fits; that the mnemonics are those of R107, each once; and that what the assembler makes of any mnemonic and operands is an
instruction the decoder reads back from its bytes. That letter case counts is the model's choice (log 28). -/
def Obligations.AssembledDecodes : Prop :=
  (∀ (value : AsmExp → Except AsmError Nat) (d8 a16 e3 : AsmExp) (imm : Byte) (adr : Word) (n : BitVec 3) (r r2 : Reg)
      (rp bd bp : RegPair),
    value d8 = .ok imm.toNat → value a16 = .ok adr.toNat → value e3 = .ok n.toNat → bd = .bc ∨ bd = .de → bp ≠ .sp →
    let reg := AsmExp.name (regName r)
    let pair := AsmExp.name (pairName rp)
    let bcDe := AsmExp.name (pairName bd)
    let stack := AsmExp.name (pairName bp)
    let mem := AsmExp.name "M"
    ∀ p ∈ ([("MOV", [reg, .name (regName r2)], .movRR r r2), ("MOV", [reg, mem], .movRM r), ("MOV", [mem, reg], .movMR r),
        ("MVI", [reg, d8], .mviR r imm), ("MVI", [mem, d8], .mviM imm), ("LDA", [a16], .lda adr), ("STA", [a16], .sta adr),
        ("LDAX", [bcDe], .ldax bd), ("STAX", [bcDe], .stax bd), ("LHLD", [a16], .lhld adr), ("SHLD", [a16], .shld adr),
        ("LXI", [pair, a16], .lxi rp adr), ("PUSH", [stack], .pushRp bp), ("PUSH", [.name "PSW"], .pushPsw),
        ("POP", [stack], .popRp bp), ("POP", [.name "PSW"], .popPsw), ("XTHL", [], .xthl), ("SPHL", [], .sphl),
        ("PCHL", [], .pchl), ("XCHG", [], .xchg), ("ADD", [reg], .addR r), ("ADD", [mem], .addM), ("SUB", [reg], .subR r),
        ("SUB", [mem], .subM), ("INR", [reg], .inrR r), ("INR", [mem], .inrM), ("DCR", [reg], .dcrR r), ("DCR", [mem], .dcrM),
        ("CMP", [reg], .cmpR r), ("CMP", [mem], .cmpM), ("ANA", [reg], .anaR r), ("ANA", [mem], .anaM), ("ORA", [reg], .oraR r),
        ("ORA", [mem], .oraM), ("XRA", [reg], .xraR r), ("XRA", [mem], .xraM), ("ADC", [reg], .adcR r), ("ADC", [mem], .adcM),
        ("SBB", [reg], .sbbR r), ("SBB", [mem], .sbbM), ("ADI", [d8], .adi imm), ("SUI", [d8], .sui imm), ("CPI", [d8], .cpi imm),
        ("ANI", [d8], .ani imm), ("ORI", [d8], .ori imm), ("XRI", [d8], .xri imm), ("ACI", [d8], .aci imm), ("SBI", [d8], .sbi imm),
        ("DAA", [], .daa), ("DAD", [pair], .dad rp), ("INX", [pair], .inx rp), ("DCX", [pair], .dcx rp)]
          : List (String × List AsmExp × Instr)) ++
        [("JMP", [a16], .jmp adr), ("JNZ", [a16], .jnz adr), ("JZ", [a16], .jz adr), ("JNC", [a16], .jnc adr), ("JC", [a16], .jc adr),
        ("JPO", [a16], .jpo adr), ("JPE", [a16], .jpe adr), ("JP", [a16], .jp adr), ("JM", [a16], .jm adr),
        ("CALL", [a16], .call adr), ("CNZ", [a16], .cnz adr), ("CZ", [a16], .cz adr), ("CNC", [a16], .cnc adr),
        ("CC", [a16], .cc adr), ("CPO", [a16], .cpo adr), ("CPE", [a16], .cpe adr), ("CP", [a16], .cp adr), ("CM", [a16], .cm adr),
        ("RET", [], .ret), ("RNZ", [], .rnz), ("RZ", [], .rz), ("RNC", [], .rnc), ("RC", [], .rc), ("RPO", [], .rpo),
        ("RPE", [], .rpe), ("RP", [], .rp), ("RM", [], .rm), ("RAL", [], .ral), ("RAR", [], .rar), ("RLC", [], .rlc),
        ("RRC", [], .rrc), ("IN", [d8], .inPort imm), ("OUT", [d8], .outPort imm), ("CMC", [], .cmc), ("STC", [], .stc),
        ("CMA", [], .cma), ("HLT", [], .hlt), ("NOP", [], .nop), ("DI", [], .di), ("EI", [], .ei), ("RST", [e3], .rst n)],
      instrNamed value p.1 p.2.1 = .ok p.2.2) ∧
  (mnemonicTable.map Prod.fst).Perm
    ["MOV", "MVI", "LDA", "STA", "LDAX", "STAX", "LHLD", "SHLD", "LXI", "PUSH", "POP", "XTHL", "SPHL", "PCHL", "XCHG", "ADD", "SUB",
      "INR", "DCR", "CMP", "ANA", "ORA", "XRA", "ADI", "SUI", "CPI", "ANI", "ORI", "XRI", "DAA", "ADC", "ACI", "SBB", "SBI", "DAD",
      "INX", "DCX", "JMP", "CALL", "RET", "JNZ", "JZ", "JNC", "JC", "JPO", "JPE", "JP", "JM", "CNZ", "CZ", "CNC", "CC", "CPO", "CPE",
      "CP", "CM", "RNZ", "RZ", "RNC", "RC", "RPO", "RPE", "RP", "RM", "RAL", "RAR", "RLC", "RRC", "IN", "OUT", "CMC", "STC", "CMA",
      "HLT", "NOP", "DI", "EI", "RST"] ∧
  (mnemonicTable.map Prod.fst).Nodup ∧ mnemonicTable.length = 78 ∧
  ∀ (value : AsmExp → Except AsmError Nat) (m : String) (ops : List AsmExp) (i : Instr),
    instrNamed value m ops = .ok i → decode (encode i) = .ok (i, [])

end
end

