-- ==== Sys2Proof/Laws/Memory.lean ====
section
/-! SUPPORT. The laws of memory as a list of cells: a read after a write, and the canonical form. -/

namespace Sys2Proof.Machine

/-- Every cell of a list is above an address. -/
theorem memGet_of_all_above {m : Memory} {a : Nat} (h : m.all (fun cell => decide (a < cell.1)) = true) :
    memGet m a = Config.unlistedByte := by
  cases m with
  | nil => rfl
  | cons cell rest =>
    obtain ⟨b, v⟩ := cell
    simp only [List.all_cons, Bool.and_eq_true, decide_eq_true_eq] at h
    simp [memGet, h.1]

theorem memGet_memDropTo_below (m : Memory) {a x : Nat} (h : x ≤ a) : memGet (memDropTo m a) x = Config.unlistedByte := by
  induction m with
  | nil => rfl
  | cons cell rest ih =>
    obtain ⟨b, v⟩ := cell
    unfold memDropTo
    split
    · exact ih
    · rename_i hb
      simp [memGet, show x < b by omega]

theorem memGet_memDropTo_above (m : Memory) {a x : Nat} (h : a < x) : memGet (memDropTo m a) x = memGet m x := by
  induction m with
  | nil => rfl
  | cons cell rest ih =>
    obtain ⟨b, v⟩ := cell
    unfold memDropTo
    split
    · rename_i hb
      rw [ih]
      simp [memGet, show ¬ x < b by omega, show ¬ x = b by omega]
    · rfl

/-- A read after a write to the same address gives the value written. -/
theorem memGet_memSet_same (m : Memory) (a : Nat) (v : Byte) : memGet (memSet m a v) a = v := by
  induction m with
  | nil =>
    unfold memSet
    split <;> simp_all [memGet]
  | cons cell rest ih =>
    obtain ⟨b, w⟩ := cell
    unfold memSet
    split
    · rename_i hab
      split <;> simp_all [memGet]
    · split
      · split
        · rename_i hv
          rw [memGet_memDropTo_below _ (Nat.le_refl a), hv]
        · simp [memGet]
      · rename_i h1 h2
        simp [memGet, h1, h2, ih]

/-- A write leaves every other address as it was. -/
theorem memGet_memSet_other (m : Memory) {a x : Nat} (v : Byte) (h : x ≠ a) : memGet (memSet m a v) x = memGet m x := by
  induction m with
  | nil =>
    unfold memSet
    split <;> simp_all [memGet]
  | cons cell rest ih =>
    obtain ⟨b, w⟩ := cell
    unfold memSet
    split
    · rename_i hab
      split
      · rfl
      · by_cases hx : x < a
        · simp [memGet, hx, show x < b by omega]
        · rw [memGet]
          simp [hx, h]
    · split
      · rename_i h1 h2
        subst h2
        split
        · by_cases hx : x < a
          · rw [memGet_memDropTo_below _ (Nat.le_of_lt hx)]
            simp [memGet, hx]
          · rw [memGet_memDropTo_above _ (by omega)]
            simp [memGet, hx, h]
        · by_cases hx : x < a
          · simp [memGet, hx]
          · simp only [memGet, hx, h, if_false]
            rw [memGet_memDropTo_above _ (by omega)]
      · rename_i h1 h2
        simp only [memGet, ih]

theorem memDropTo_of_above {m : Memory} {a : Nat} (h : m.all (fun cell => decide (a < cell.1)) = true) : memDropTo m a = m := by
  cases m with
  | nil => rfl
  | cons cell rest =>
    obtain ⟨b, v⟩ := cell
    simp only [List.all_cons, Bool.and_eq_true, decide_eq_true_eq] at h
    simp [memDropTo, h.1]

theorem mem_memDropTo {m : Memory} {a : Nat} {cell : Host.Cell} (h : cell ∈ memDropTo m a) : cell ∈ m := by
  induction m with
  | nil => exact h
  | cons head rest ih =>
    obtain ⟨b, w⟩ := head
    unfold memDropTo at h
    split at h
    · exact List.mem_cons_of_mem _ (ih h)
    · exact h

/-- A cell after a write is the one written or was there before. -/
theorem mem_memSet {m : Memory} {a : Nat} {v : Byte} {cell : Host.Cell} (h : cell ∈ memSet m a v) : cell = (a, v) ∨ cell ∈ m := by
  induction m with
  | nil =>
    unfold memSet at h
    split at h
    · exact .inr h
    · exact .inl (List.mem_singleton.mp h)
  | cons head rest ih =>
    obtain ⟨b, w⟩ := head
    unfold memSet at h
    split at h
    · split at h
      · exact .inr h
      · exact List.mem_cons.mp h
    · split at h
      · split at h
        · exact .inr (List.mem_cons_of_mem _ (mem_memDropTo h))
        · exact (List.mem_cons.mp h).imp id fun h => List.mem_cons_of_mem _ (mem_memDropTo h)
      · rcases List.mem_cons.mp h with h | h
        · exact .inr (h ▸ List.mem_cons_self)
        · exact (ih h).imp id (List.mem_cons_of_mem _)

theorem memSet_all_above {m : Memory} {a x : Nat} (v : Byte) (hx : x < a)
    (h : m.all (fun cell => decide (x < cell.1)) = true) : (memSet m a v).all (fun cell => decide (x < cell.1)) = true := by
  rw [List.all_eq_true] at h ⊢
  intro cell hc
  rcases mem_memSet hc with rfl | hc
  · exact decide_eq_true hx
  · exact h cell hc

/-- Every memory operation is a `memSet`, and `memSet` keeps the canonical form. -/
theorem memSet_wf {m : Memory} {a : Nat} {v : Byte} (h : Memory.wf m = true) (ha : a < 2 ^ 16) : Memory.wf (memSet m a v) = true := by
  induction m with
  | nil =>
    unfold memSet
    split
    · rfl
    · rename_i hv
      simp only [Memory.wf, List.all_nil, Bool.and_true, Bool.and_eq_true, decide_eq_true_eq, bne_iff_ne]
      exact ⟨ha, hv⟩
  | cons cell rest ih =>
    obtain ⟨b, w⟩ := cell
    have h0 := h
    simp only [Memory.wf, Bool.and_eq_true, decide_eq_true_eq, bne_iff_ne] at h
    obtain ⟨⟨⟨hb, hw⟩, habove⟩, hrest⟩ := h
    unfold memSet
    split
    · rename_i hab
      split
      · exact h0
      · rename_i hv
        simp only [Memory.wf, List.all_cons, Bool.and_eq_true, decide_eq_true_eq, bne_iff_ne]
        refine ⟨⟨⟨ha, hv⟩, hab, ?_⟩, ⟨⟨hb, hw⟩, habove⟩, hrest⟩
        rw [List.all_eq_true] at habove ⊢
        intro c hc
        have := habove c hc
        simp only [decide_eq_true_eq] at this ⊢
        omega
    · split
      · rename_i h1 h2
        subst h2
        rw [memDropTo_of_above habove]
        split
        · exact hrest
        · rename_i hv
          simp only [Memory.wf, Bool.and_eq_true, decide_eq_true_eq, bne_iff_ne]
          exact ⟨⟨⟨ha, hv⟩, habove⟩, hrest⟩
      · rename_i h1 h2
        simp only [Memory.wf, Bool.and_eq_true, decide_eq_true_eq, bne_iff_ne]
        exact ⟨⟨⟨hb, hw⟩, memSet_all_above v (by omega) habove⟩, ih hrest⟩

end Sys2Proof.Machine
end

