-- ==== Sys2Proof/Laws/State.lean ====
section
/-! SUPPORT. One lemma per field per named update of the state, so that no proof unfolds a record update. -/

namespace Sys2Proof.Machine

@[simp] theorem State.withRegs_regs (s : State) (x : Regs) : (s.withRegs x).regs = x := rfl
@[simp] theorem State.withRegs_flags (s : State) (x : Regs) : (s.withRegs x).flags = s.flags := rfl
@[simp] theorem State.withRegs_sp (s : State) (x : Regs) : (s.withRegs x).sp = s.sp := rfl
@[simp] theorem State.withRegs_pc (s : State) (x : Regs) : (s.withRegs x).pc = s.pc := rfl
@[simp] theorem State.withRegs_inte (s : State) (x : Regs) : (s.withRegs x).inte = s.inte := rfl
@[simp] theorem State.withRegs_halted (s : State) (x : Regs) : (s.withRegs x).halted = s.halted := rfl
@[simp] theorem State.withRegs_eiPending (s : State) (x : Regs) : (s.withRegs x).eiPending = s.eiPending := rfl
@[simp] theorem State.withRegs_mem (s : State) (x : Regs) : (s.withRegs x).mem = s.mem := rfl
@[simp] theorem State.withRegs_faulted (s : State) (x : Regs) : (s.withRegs x).faulted = s.faulted := rfl
@[simp] theorem State.withRegs_history (s : State) (x : Regs) : (s.withRegs x).history = s.history := rfl
@[simp] theorem State.withRegs_params (s : State) (x : Regs) : (s.withRegs x).params = s.params := rfl
@[simp] theorem State.withRegs_offers (s : State) (x : Regs) : (s.withRegs x).offers = s.offers := rfl
@[simp] theorem State.withRegs_inputs (s : State) (x : Regs) : (s.withRegs x).inputs = s.inputs := rfl
@[simp] theorem State.withRegs_draws (s : State) (x : Regs) : (s.withRegs x).draws = s.draws := rfl

@[simp] theorem State.withFlags_regs (s : State) (x : Flags) : (s.withFlags x).regs = s.regs := rfl
@[simp] theorem State.withFlags_flags (s : State) (x : Flags) : (s.withFlags x).flags = x := rfl
@[simp] theorem State.withFlags_sp (s : State) (x : Flags) : (s.withFlags x).sp = s.sp := rfl
@[simp] theorem State.withFlags_pc (s : State) (x : Flags) : (s.withFlags x).pc = s.pc := rfl
@[simp] theorem State.withFlags_inte (s : State) (x : Flags) : (s.withFlags x).inte = s.inte := rfl
@[simp] theorem State.withFlags_halted (s : State) (x : Flags) : (s.withFlags x).halted = s.halted := rfl
@[simp] theorem State.withFlags_eiPending (s : State) (x : Flags) : (s.withFlags x).eiPending = s.eiPending := rfl
@[simp] theorem State.withFlags_mem (s : State) (x : Flags) : (s.withFlags x).mem = s.mem := rfl
@[simp] theorem State.withFlags_faulted (s : State) (x : Flags) : (s.withFlags x).faulted = s.faulted := rfl
@[simp] theorem State.withFlags_history (s : State) (x : Flags) : (s.withFlags x).history = s.history := rfl
@[simp] theorem State.withFlags_params (s : State) (x : Flags) : (s.withFlags x).params = s.params := rfl
@[simp] theorem State.withFlags_offers (s : State) (x : Flags) : (s.withFlags x).offers = s.offers := rfl
@[simp] theorem State.withFlags_inputs (s : State) (x : Flags) : (s.withFlags x).inputs = s.inputs := rfl
@[simp] theorem State.withFlags_draws (s : State) (x : Flags) : (s.withFlags x).draws = s.draws := rfl

@[simp] theorem State.withSp_regs (s : State) (x : Word) : (s.withSp x).regs = s.regs := rfl
@[simp] theorem State.withSp_flags (s : State) (x : Word) : (s.withSp x).flags = s.flags := rfl
@[simp] theorem State.withSp_sp (s : State) (x : Word) : (s.withSp x).sp = x := rfl
@[simp] theorem State.withSp_pc (s : State) (x : Word) : (s.withSp x).pc = s.pc := rfl
@[simp] theorem State.withSp_inte (s : State) (x : Word) : (s.withSp x).inte = s.inte := rfl
@[simp] theorem State.withSp_halted (s : State) (x : Word) : (s.withSp x).halted = s.halted := rfl
@[simp] theorem State.withSp_eiPending (s : State) (x : Word) : (s.withSp x).eiPending = s.eiPending := rfl
@[simp] theorem State.withSp_mem (s : State) (x : Word) : (s.withSp x).mem = s.mem := rfl
@[simp] theorem State.withSp_faulted (s : State) (x : Word) : (s.withSp x).faulted = s.faulted := rfl
@[simp] theorem State.withSp_history (s : State) (x : Word) : (s.withSp x).history = s.history := rfl
@[simp] theorem State.withSp_params (s : State) (x : Word) : (s.withSp x).params = s.params := rfl
@[simp] theorem State.withSp_offers (s : State) (x : Word) : (s.withSp x).offers = s.offers := rfl
@[simp] theorem State.withSp_inputs (s : State) (x : Word) : (s.withSp x).inputs = s.inputs := rfl
@[simp] theorem State.withSp_draws (s : State) (x : Word) : (s.withSp x).draws = s.draws := rfl

@[simp] theorem State.withMem_regs (s : State) (x : Memory) : (s.withMem x).regs = s.regs := rfl
@[simp] theorem State.withMem_flags (s : State) (x : Memory) : (s.withMem x).flags = s.flags := rfl
@[simp] theorem State.withMem_sp (s : State) (x : Memory) : (s.withMem x).sp = s.sp := rfl
@[simp] theorem State.withMem_pc (s : State) (x : Memory) : (s.withMem x).pc = s.pc := rfl
@[simp] theorem State.withMem_inte (s : State) (x : Memory) : (s.withMem x).inte = s.inte := rfl
@[simp] theorem State.withMem_halted (s : State) (x : Memory) : (s.withMem x).halted = s.halted := rfl
@[simp] theorem State.withMem_eiPending (s : State) (x : Memory) : (s.withMem x).eiPending = s.eiPending := rfl
@[simp] theorem State.withMem_mem (s : State) (x : Memory) : (s.withMem x).mem = x := rfl
@[simp] theorem State.withMem_faulted (s : State) (x : Memory) : (s.withMem x).faulted = s.faulted := rfl
@[simp] theorem State.withMem_history (s : State) (x : Memory) : (s.withMem x).history = s.history := rfl
@[simp] theorem State.withMem_params (s : State) (x : Memory) : (s.withMem x).params = s.params := rfl
@[simp] theorem State.withMem_offers (s : State) (x : Memory) : (s.withMem x).offers = s.offers := rfl
@[simp] theorem State.withMem_inputs (s : State) (x : Memory) : (s.withMem x).inputs = s.inputs := rfl
@[simp] theorem State.withMem_draws (s : State) (x : Memory) : (s.withMem x).draws = s.draws := rfl

@[simp] theorem State.record_regs (s : State) (x : IoEvent) : (s.record x).regs = s.regs := rfl
@[simp] theorem State.record_flags (s : State) (x : IoEvent) : (s.record x).flags = s.flags := rfl
@[simp] theorem State.record_sp (s : State) (x : IoEvent) : (s.record x).sp = s.sp := rfl
@[simp] theorem State.record_pc (s : State) (x : IoEvent) : (s.record x).pc = s.pc := rfl
@[simp] theorem State.record_inte (s : State) (x : IoEvent) : (s.record x).inte = s.inte := rfl
@[simp] theorem State.record_halted (s : State) (x : IoEvent) : (s.record x).halted = s.halted := rfl
@[simp] theorem State.record_eiPending (s : State) (x : IoEvent) : (s.record x).eiPending = s.eiPending := rfl
@[simp] theorem State.record_mem (s : State) (x : IoEvent) : (s.record x).mem = s.mem := rfl
@[simp] theorem State.record_faulted (s : State) (x : IoEvent) : (s.record x).faulted = s.faulted := rfl
@[simp] theorem State.record_history (s : State) (x : IoEvent) : (s.record x).history = s.history ++ [x] := rfl
@[simp] theorem State.record_params (s : State) (x : IoEvent) : (s.record x).params = s.params := rfl
@[simp] theorem State.record_offers (s : State) (x : IoEvent) : (s.record x).offers = s.offers := rfl
@[simp] theorem State.record_inputs (s : State) (x : IoEvent) : (s.record x).inputs = s.inputs := rfl
@[simp] theorem State.record_draws (s : State) (x : IoEvent) : (s.record x).draws = s.draws := rfl

@[simp] theorem State.drawn_regs (s : State) (x : List Byte) : (s.drawn x).regs = s.regs := rfl
@[simp] theorem State.drawn_flags (s : State) (x : List Byte) : (s.drawn x).flags = s.flags := rfl
@[simp] theorem State.drawn_sp (s : State) (x : List Byte) : (s.drawn x).sp = s.sp := rfl
@[simp] theorem State.drawn_pc (s : State) (x : List Byte) : (s.drawn x).pc = s.pc := rfl
@[simp] theorem State.drawn_inte (s : State) (x : List Byte) : (s.drawn x).inte = s.inte := rfl
@[simp] theorem State.drawn_halted (s : State) (x : List Byte) : (s.drawn x).halted = s.halted := rfl
@[simp] theorem State.drawn_eiPending (s : State) (x : List Byte) : (s.drawn x).eiPending = s.eiPending := rfl
@[simp] theorem State.drawn_mem (s : State) (x : List Byte) : (s.drawn x).mem = s.mem := rfl
@[simp] theorem State.drawn_faulted (s : State) (x : List Byte) : (s.drawn x).faulted = s.faulted := rfl
@[simp] theorem State.drawn_history (s : State) (x : List Byte) : (s.drawn x).history = s.history := rfl
@[simp] theorem State.drawn_params (s : State) (x : List Byte) : (s.drawn x).params = s.params := rfl
@[simp] theorem State.drawn_offers (s : State) (x : List Byte) : (s.drawn x).offers = s.offers := rfl
@[simp] theorem State.drawn_inputs (s : State) (x : List Byte) : (s.drawn x).inputs = x := rfl
@[simp] theorem State.drawn_draws (s : State) (x : List Byte) : (s.drawn x).draws = s.draws + 1 := rfl

@[simp] theorem State.goto_regs (s : State) (x : Word) : (s.goto x).regs = s.regs := rfl
@[simp] theorem State.goto_flags (s : State) (x : Word) : (s.goto x).flags = s.flags := rfl
@[simp] theorem State.goto_sp (s : State) (x : Word) : (s.goto x).sp = s.sp := rfl
@[simp] theorem State.goto_pc (s : State) (x : Word) : (s.goto x).pc = x := rfl
@[simp] theorem State.goto_inte (s : State) (x : Word) : (s.goto x).inte = s.inte := rfl
@[simp] theorem State.goto_halted (s : State) (x : Word) : (s.goto x).halted = s.halted := rfl
@[simp] theorem State.goto_eiPending (s : State) (x : Word) : (s.goto x).eiPending = false := rfl
@[simp] theorem State.goto_mem (s : State) (x : Word) : (s.goto x).mem = s.mem := rfl
@[simp] theorem State.goto_faulted (s : State) (x : Word) : (s.goto x).faulted = s.faulted := rfl
@[simp] theorem State.goto_history (s : State) (x : Word) : (s.goto x).history = s.history := rfl
@[simp] theorem State.goto_params (s : State) (x : Word) : (s.goto x).params = s.params := rfl
@[simp] theorem State.goto_offers (s : State) (x : Word) : (s.goto x).offers = s.offers := rfl
@[simp] theorem State.goto_inputs (s : State) (x : Word) : (s.goto x).inputs = s.inputs := rfl
@[simp] theorem State.goto_draws (s : State) (x : Word) : (s.goto x).draws = s.draws := rfl

@[simp] theorem State.advance_regs (s : State) (x : Word) : (s.advance x).regs = s.regs := rfl
@[simp] theorem State.advance_flags (s : State) (x : Word) : (s.advance x).flags = s.flags := rfl
@[simp] theorem State.advance_sp (s : State) (x : Word) : (s.advance x).sp = s.sp := rfl
@[simp] theorem State.advance_pc (s : State) (x : Word) : (s.advance x).pc = s.pc + x := rfl
@[simp] theorem State.advance_inte (s : State) (x : Word) : (s.advance x).inte = s.inte := rfl
@[simp] theorem State.advance_halted (s : State) (x : Word) : (s.advance x).halted = s.halted := rfl
@[simp] theorem State.advance_eiPending (s : State) (x : Word) : (s.advance x).eiPending = false := rfl
@[simp] theorem State.advance_mem (s : State) (x : Word) : (s.advance x).mem = s.mem := rfl
@[simp] theorem State.advance_faulted (s : State) (x : Word) : (s.advance x).faulted = s.faulted := rfl
@[simp] theorem State.advance_history (s : State) (x : Word) : (s.advance x).history = s.history := rfl
@[simp] theorem State.advance_params (s : State) (x : Word) : (s.advance x).params = s.params := rfl
@[simp] theorem State.advance_offers (s : State) (x : Word) : (s.advance x).offers = s.offers := rfl
@[simp] theorem State.advance_inputs (s : State) (x : Word) : (s.advance x).inputs = s.inputs := rfl
@[simp] theorem State.advance_draws (s : State) (x : Word) : (s.advance x).draws = s.draws := rfl

@[simp] theorem State.withRegs_byteAt (s : State) (x : Regs) (a : Word) : (s.withRegs x).byteAt a = s.byteAt a := rfl
@[simp] theorem State.withFlags_byteAt (s : State) (x : Flags) (a : Word) : (s.withFlags x).byteAt a = s.byteAt a := rfl
@[simp] theorem State.withSp_byteAt (s : State) (x a : Word) : (s.withSp x).byteAt a = s.byteAt a := rfl
@[simp] theorem State.record_byteAt (s : State) (x : IoEvent) (a : Word) : (s.record x).byteAt a = s.byteAt a := rfl
@[simp] theorem State.drawn_byteAt (s : State) (x : List Byte) (a : Word) : (s.drawn x).byteAt a = s.byteAt a := rfl
@[simp] theorem State.goto_byteAt (s : State) (x a : Word) : (s.goto x).byteAt a = s.byteAt a := rfl
@[simp] theorem State.advance_byteAt (s : State) (x a : Word) : (s.advance x).byteAt a = s.byteAt a := rfl

@[simp] theorem State.setReg_flags (s : State) (r : Reg) (v : Byte) : (s.setReg r v).flags = s.flags := by cases r <;> rfl
@[simp] theorem State.setReg_sp (s : State) (r : Reg) (v : Byte) : (s.setReg r v).sp = s.sp := by cases r <;> rfl
@[simp] theorem State.setReg_pc (s : State) (r : Reg) (v : Byte) : (s.setReg r v).pc = s.pc := by cases r <;> rfl
@[simp] theorem State.setReg_inte (s : State) (r : Reg) (v : Byte) : (s.setReg r v).inte = s.inte := by cases r <;> rfl
@[simp] theorem State.setReg_halted (s : State) (r : Reg) (v : Byte) : (s.setReg r v).halted = s.halted := by cases r <;> rfl
@[simp] theorem State.setReg_eiPending (s : State) (r : Reg) (v : Byte) : (s.setReg r v).eiPending = s.eiPending := by cases r <;> rfl
@[simp] theorem State.setReg_mem (s : State) (r : Reg) (v : Byte) : (s.setReg r v).mem = s.mem := by cases r <;> rfl
@[simp] theorem State.setReg_faulted (s : State) (r : Reg) (v : Byte) : (s.setReg r v).faulted = s.faulted := by cases r <;> rfl
@[simp] theorem State.setReg_history (s : State) (r : Reg) (v : Byte) : (s.setReg r v).history = s.history := by cases r <;> rfl
@[simp] theorem State.setReg_params (s : State) (r : Reg) (v : Byte) : (s.setReg r v).params = s.params := by cases r <;> rfl
@[simp] theorem State.setReg_offers (s : State) (r : Reg) (v : Byte) : (s.setReg r v).offers = s.offers := by cases r <;> rfl
@[simp] theorem State.setReg_inputs (s : State) (r : Reg) (v : Byte) : (s.setReg r v).inputs = s.inputs := by cases r <;> rfl
@[simp] theorem State.setReg_draws (s : State) (r : Reg) (v : Byte) : (s.setReg r v).draws = s.draws := by cases r <;> rfl
@[simp] theorem State.setPair_flags (s : State) (p : RegPair) (w : Word) : (s.setPair p w).flags = s.flags := by cases p <;> rfl
@[simp] theorem State.setPair_pc (s : State) (p : RegPair) (w : Word) : (s.setPair p w).pc = s.pc := by cases p <;> rfl
@[simp] theorem State.setPair_inte (s : State) (p : RegPair) (w : Word) : (s.setPair p w).inte = s.inte := by cases p <;> rfl
@[simp] theorem State.setPair_halted (s : State) (p : RegPair) (w : Word) : (s.setPair p w).halted = s.halted := by cases p <;> rfl
@[simp] theorem State.setPair_eiPending (s : State) (p : RegPair) (w : Word) : (s.setPair p w).eiPending = s.eiPending := by cases p <;> rfl
@[simp] theorem State.setPair_mem (s : State) (p : RegPair) (w : Word) : (s.setPair p w).mem = s.mem := by cases p <;> rfl
@[simp] theorem State.setPair_faulted (s : State) (p : RegPair) (w : Word) : (s.setPair p w).faulted = s.faulted := by cases p <;> rfl
@[simp] theorem State.setPair_history (s : State) (p : RegPair) (w : Word) : (s.setPair p w).history = s.history := by cases p <;> rfl
@[simp] theorem State.setPair_params (s : State) (p : RegPair) (w : Word) : (s.setPair p w).params = s.params := by cases p <;> rfl
@[simp] theorem State.setPair_offers (s : State) (p : RegPair) (w : Word) : (s.setPair p w).offers = s.offers := by cases p <;> rfl
@[simp] theorem State.setPair_inputs (s : State) (p : RegPair) (w : Word) : (s.setPair p w).inputs = s.inputs := by cases p <;> rfl
@[simp] theorem State.setPair_draws (s : State) (p : RegPair) (w : Word) : (s.setPair p w).draws = s.draws := by cases p <;> rfl

@[simp] theorem State.setReg_byteAt (s : State) (r : Reg) (v : Byte) (a : Word) : (s.setReg r v).byteAt a = s.byteAt a := by
  cases r <;> rfl
@[simp] theorem State.setPair_byteAt (s : State) (p : RegPair) (w a : Word) : (s.setPair p w).byteAt a = s.byteAt a := by
  cases p <;> rfl

/-- A register reads as what was written to it. -/
@[simp] theorem State.getReg_setReg_same (s : State) (r : Reg) (v : Byte) : (s.setReg r v).getReg r = v := by
  cases r <;> rfl

/-- A write to one register leaves every other as it was. -/
theorem State.getReg_setReg_other (s : State) {r q : Reg} (v : Byte) (h : q ≠ r) : (s.setReg r v).getReg q = s.getReg q := by
  cases r <;> cases q <;> first | rfl | exact absurd rfl h

/-- Equal register files read alike. -/
theorem State.getReg_congr {s t : State} (h : t.regs = s.regs) (r : Reg) : t.getReg r = s.getReg r := by
  cases r <;> simp [State.getReg, h]

/-- Equal register files and stack pointers give equal pairs. -/
theorem State.getPair_congr {s t : State} (h : t.regs = s.regs) (hs : t.sp = s.sp) (p : RegPair) : t.getPair p = s.getPair p := by
  cases p <;> simp [State.getPair, h, hs]

end Sys2Proof.Machine
end

