-- ==== Sys2Proof/Laws/Ops.lean ====
section
/-! SUPPORT. What the shared operations on memory, ports and the stack can do, once for each: the fields they leave alone, and the
bytes they write. -/

namespace Sys2Proof.Machine

/-- A draw takes the environment's next answer or the next free value. -/
theorem State.draw_cases (s : State) :
    (∃ v rest, s.inputs = v :: rest ∧ s.draw = (v, s.drawn rest)) ∨
      (s.inputs = [] ∧ s.draw = (Config.drawByte s.draws, s.drawn [])) := by
  unfold State.draw
  cases h : s.inputs with
  | nil => exact .inr ⟨rfl, rfl⟩
  | cons v rest => exact .inl ⟨v, rest, rfl, rfl⟩

@[simp] theorem State.draw_regs (s : State) : s.draw.2.regs = s.regs := by
  unfold State.draw; split <;> rfl
@[simp] theorem State.draw_flags (s : State) : s.draw.2.flags = s.flags := by
  unfold State.draw; split <;> rfl
@[simp] theorem State.draw_sp (s : State) : s.draw.2.sp = s.sp := by
  unfold State.draw; split <;> rfl
@[simp] theorem State.draw_pc (s : State) : s.draw.2.pc = s.pc := by
  unfold State.draw; split <;> rfl
@[simp] theorem State.draw_inte (s : State) : s.draw.2.inte = s.inte := by
  unfold State.draw; split <;> rfl
@[simp] theorem State.draw_halted (s : State) : s.draw.2.halted = s.halted := by
  unfold State.draw; split <;> rfl
@[simp] theorem State.draw_eiPending (s : State) : s.draw.2.eiPending = s.eiPending := by
  unfold State.draw; split <;> rfl
@[simp] theorem State.draw_mem (s : State) : s.draw.2.mem = s.mem := by
  unfold State.draw; split <;> rfl
@[simp] theorem State.draw_faulted (s : State) : s.draw.2.faulted = s.faulted := by
  unfold State.draw; split <;> rfl
@[simp] theorem State.draw_params (s : State) : s.draw.2.params = s.params := by
  unfold State.draw; split <;> rfl
@[simp] theorem State.draw_offers (s : State) : s.draw.2.offers = s.offers := by
  unfold State.draw; split <;> rfl
@[simp] theorem State.draw_history (s : State) : s.draw.2.history = s.history := by
  unfold State.draw; split <;> rfl
@[simp] theorem State.draw_draws (s : State) : s.draw.2.draws = s.draws + 1 := by
  unfold State.draw; split <;> rfl

/-- A read by the kind of the address (R56). -/
theorem State.load_cases (s : State) (a : Word) :
    (s.load a = (s.byteAt a, s)) ∨ (s.load a = s.draw) ∨
      (s.load a = (s.draw.1, s.draw.2.record (.deviceRead a s.draw.1))) := by
  unfold State.load
  split <;> simp

@[simp] theorem State.load_regs (s : State) (a : Word) : (s.load a).2.regs = s.regs := by
  unfold State.load; split <;> simp
@[simp] theorem State.load_flags (s : State) (a : Word) : (s.load a).2.flags = s.flags := by
  unfold State.load; split <;> simp
@[simp] theorem State.load_sp (s : State) (a : Word) : (s.load a).2.sp = s.sp := by
  unfold State.load; split <;> simp
@[simp] theorem State.load_pc (s : State) (a : Word) : (s.load a).2.pc = s.pc := by
  unfold State.load; split <;> simp
@[simp] theorem State.load_inte (s : State) (a : Word) : (s.load a).2.inte = s.inte := by
  unfold State.load; split <;> simp
@[simp] theorem State.load_halted (s : State) (a : Word) : (s.load a).2.halted = s.halted := by
  unfold State.load; split <;> simp
@[simp] theorem State.load_eiPending (s : State) (a : Word) : (s.load a).2.eiPending = s.eiPending := by
  unfold State.load; split <;> simp
@[simp] theorem State.load_mem (s : State) (a : Word) : (s.load a).2.mem = s.mem := by
  unfold State.load; split <;> simp
@[simp] theorem State.load_faulted (s : State) (a : Word) : (s.load a).2.faulted = s.faulted := by
  unfold State.load; split <;> simp
@[simp] theorem State.load_params (s : State) (a : Word) : (s.load a).2.params = s.params := by
  unfold State.load; split <;> simp
@[simp] theorem State.load_offers (s : State) (a : Word) : (s.load a).2.offers = s.offers := by
  unfold State.load; split <;> simp

@[simp] theorem State.load_byteAt (s : State) (a b : Word) : (s.load a).2.byteAt b = s.byteAt b := by
  simp [State.byteAt]

@[simp] theorem State.load16_regs (s : State) (a : Word) : (s.load16 a).2.regs = s.regs := by
  simp [State.load16]
@[simp] theorem State.load16_flags (s : State) (a : Word) : (s.load16 a).2.flags = s.flags := by
  simp [State.load16]
@[simp] theorem State.load16_sp (s : State) (a : Word) : (s.load16 a).2.sp = s.sp := by
  simp [State.load16]
@[simp] theorem State.load16_pc (s : State) (a : Word) : (s.load16 a).2.pc = s.pc := by
  simp [State.load16]
@[simp] theorem State.load16_inte (s : State) (a : Word) : (s.load16 a).2.inte = s.inte := by
  simp [State.load16]
@[simp] theorem State.load16_halted (s : State) (a : Word) : (s.load16 a).2.halted = s.halted := by
  simp [State.load16]
@[simp] theorem State.load16_eiPending (s : State) (a : Word) : (s.load16 a).2.eiPending = s.eiPending := by
  simp [State.load16]
@[simp] theorem State.load16_mem (s : State) (a : Word) : (s.load16 a).2.mem = s.mem := by
  simp [State.load16]
@[simp] theorem State.load16_faulted (s : State) (a : Word) : (s.load16 a).2.faulted = s.faulted := by
  simp [State.load16]
@[simp] theorem State.load16_params (s : State) (a : Word) : (s.load16 a).2.params = s.params := by
  simp [State.load16]
@[simp] theorem State.load16_offers (s : State) (a : Word) : (s.load16 a).2.offers = s.offers := by
  simp [State.load16]

@[simp] theorem State.load16_byteAt (s : State) (a b : Word) : (s.load16 a).2.byteAt b = s.byteAt b := by
  simp [State.byteAt]

@[simp] theorem State.pop16_regs (s : State) : s.pop16.2.regs = s.regs := by
  simp [State.pop16]
@[simp] theorem State.pop16_flags (s : State) : s.pop16.2.flags = s.flags := by
  simp [State.pop16]
@[simp] theorem State.pop16_pc (s : State) : s.pop16.2.pc = s.pc := by
  simp [State.pop16]
@[simp] theorem State.pop16_inte (s : State) : s.pop16.2.inte = s.inte := by
  simp [State.pop16]
@[simp] theorem State.pop16_halted (s : State) : s.pop16.2.halted = s.halted := by
  simp [State.pop16]
@[simp] theorem State.pop16_eiPending (s : State) : s.pop16.2.eiPending = s.eiPending := by
  simp [State.pop16]
@[simp] theorem State.pop16_mem (s : State) : s.pop16.2.mem = s.mem := by
  simp [State.pop16]
@[simp] theorem State.pop16_faulted (s : State) : s.pop16.2.faulted = s.faulted := by
  simp [State.pop16]
@[simp] theorem State.pop16_params (s : State) : s.pop16.2.params = s.params := by
  simp [State.pop16]
@[simp] theorem State.pop16_offers (s : State) : s.pop16.2.offers = s.offers := by
  simp [State.pop16]
@[simp] theorem State.pop16_sp (s : State) : s.pop16.2.sp = s.sp + 2 := rfl
@[simp] theorem State.pop16_byteAt (s : State) (b : Word) : s.pop16.2.byteAt b = s.byteAt b := by
  simp [State.byteAt]

@[simp] theorem State.ioRead_regs (s : State) (p : Byte) : (s.ioRead p).2.regs = s.regs := by
  simp [State.ioRead]
@[simp] theorem State.ioRead_flags (s : State) (p : Byte) : (s.ioRead p).2.flags = s.flags := by
  simp [State.ioRead]
@[simp] theorem State.ioRead_sp (s : State) (p : Byte) : (s.ioRead p).2.sp = s.sp := by
  simp [State.ioRead]
@[simp] theorem State.ioRead_pc (s : State) (p : Byte) : (s.ioRead p).2.pc = s.pc := by
  simp [State.ioRead]
@[simp] theorem State.ioRead_inte (s : State) (p : Byte) : (s.ioRead p).2.inte = s.inte := by
  simp [State.ioRead]
@[simp] theorem State.ioRead_halted (s : State) (p : Byte) : (s.ioRead p).2.halted = s.halted := by
  simp [State.ioRead]
@[simp] theorem State.ioRead_eiPending (s : State) (p : Byte) : (s.ioRead p).2.eiPending = s.eiPending := by
  simp [State.ioRead]
@[simp] theorem State.ioRead_mem (s : State) (p : Byte) : (s.ioRead p).2.mem = s.mem := by
  simp [State.ioRead]
@[simp] theorem State.ioRead_faulted (s : State) (p : Byte) : (s.ioRead p).2.faulted = s.faulted := by
  simp [State.ioRead]
@[simp] theorem State.ioRead_params (s : State) (p : Byte) : (s.ioRead p).2.params = s.params := by
  simp [State.ioRead]
@[simp] theorem State.ioRead_offers (s : State) (p : Byte) : (s.ioRead p).2.offers = s.offers := by
  simp [State.ioRead]

@[simp] theorem State.store_regs (s : State) (a : Word) (v : Byte) : (s.store a v).regs = s.regs := by
  unfold State.store; split <;> simp
@[simp] theorem State.store_flags (s : State) (a : Word) (v : Byte) : (s.store a v).flags = s.flags := by
  unfold State.store; split <;> simp
@[simp] theorem State.store_sp (s : State) (a : Word) (v : Byte) : (s.store a v).sp = s.sp := by
  unfold State.store; split <;> simp
@[simp] theorem State.store_pc (s : State) (a : Word) (v : Byte) : (s.store a v).pc = s.pc := by
  unfold State.store; split <;> simp
@[simp] theorem State.store_inte (s : State) (a : Word) (v : Byte) : (s.store a v).inte = s.inte := by
  unfold State.store; split <;> simp
@[simp] theorem State.store_halted (s : State) (a : Word) (v : Byte) : (s.store a v).halted = s.halted := by
  unfold State.store; split <;> simp
@[simp] theorem State.store_eiPending (s : State) (a : Word) (v : Byte) : (s.store a v).eiPending = s.eiPending := by
  unfold State.store; split <;> simp
@[simp] theorem State.store_faulted (s : State) (a : Word) (v : Byte) : (s.store a v).faulted = s.faulted := by
  unfold State.store; split <;> simp
@[simp] theorem State.store_params (s : State) (a : Word) (v : Byte) : (s.store a v).params = s.params := by
  unfold State.store; split <;> simp
@[simp] theorem State.store_offers (s : State) (a : Word) (v : Byte) : (s.store a v).offers = s.offers := by
  unfold State.store; split <;> simp
@[simp] theorem State.store_inputs (s : State) (a : Word) (v : Byte) : (s.store a v).inputs = s.inputs := by
  unfold State.store; split <;> simp
@[simp] theorem State.store_draws (s : State) (a : Word) (v : Byte) : (s.store a v).draws = s.draws := by
  unfold State.store; split <;> simp

/-- A store writes nothing outside its address. -/
theorem State.store_byteAt_other (s : State) (a b : Word) (v : Byte) (h : b ≠ a) : (s.store a v).byteAt b = s.byteAt b := by
  unfold State.store
  split <;> try rfl
  exact memGet_memSet_other _ _ (fun e => h (BitVec.eq_of_toNat_eq e))

/-- A store to RAM is read back. -/
theorem State.store_byteAt_same (s : State) (a : Word) (v : Byte) (h : kindAt s.params a = .ram) :
    (s.store a v).byteAt a = v := by
  simp only [State.store, h, State.byteAt, State.withMem_mem]
  exact memGet_memSet_same ..

/-- A store to an address that is not RAM leaves memory as it was. -/
theorem State.store_mem_of_not_ram (s : State) (a : Word) (v : Byte) (h : kindAt s.params a ≠ .ram) :
    (s.store a v).mem = s.mem := by
  unfold State.store
  split <;> simp_all

/-- A store keeps the canonical form. -/
theorem State.store_wf (s : State) (a : Word) (v : Byte) (h : Memory.wf s.mem = true) : Memory.wf (s.store a v).mem = true := by
  unfold State.store
  split <;> try exact h
  exact memSet_wf h a.isLt

@[simp] theorem State.store16_regs (s : State) (a w : Word) : (s.store16 a w).regs = s.regs := by
  simp [State.store16]
@[simp] theorem State.store16_flags (s : State) (a w : Word) : (s.store16 a w).flags = s.flags := by
  simp [State.store16]
@[simp] theorem State.store16_sp (s : State) (a w : Word) : (s.store16 a w).sp = s.sp := by
  simp [State.store16]
@[simp] theorem State.store16_pc (s : State) (a w : Word) : (s.store16 a w).pc = s.pc := by
  simp [State.store16]
@[simp] theorem State.store16_inte (s : State) (a w : Word) : (s.store16 a w).inte = s.inte := by
  simp [State.store16]
@[simp] theorem State.store16_halted (s : State) (a w : Word) : (s.store16 a w).halted = s.halted := by
  simp [State.store16]
@[simp] theorem State.store16_eiPending (s : State) (a w : Word) : (s.store16 a w).eiPending = s.eiPending := by
  simp [State.store16]
@[simp] theorem State.store16_faulted (s : State) (a w : Word) : (s.store16 a w).faulted = s.faulted := by
  simp [State.store16]
@[simp] theorem State.store16_params (s : State) (a w : Word) : (s.store16 a w).params = s.params := by
  simp [State.store16]
@[simp] theorem State.store16_offers (s : State) (a w : Word) : (s.store16 a w).offers = s.offers := by
  simp [State.store16]
@[simp] theorem State.store16_inputs (s : State) (a w : Word) : (s.store16 a w).inputs = s.inputs := by
  simp [State.store16]
@[simp] theorem State.store16_draws (s : State) (a w : Word) : (s.store16 a w).draws = s.draws := by
  simp [State.store16]

@[simp] theorem State.push16_regs (s : State) (w : Word) : (s.push16 w).regs = s.regs := by
  simp [State.push16]
@[simp] theorem State.push16_flags (s : State) (w : Word) : (s.push16 w).flags = s.flags := by
  simp [State.push16]
@[simp] theorem State.push16_pc (s : State) (w : Word) : (s.push16 w).pc = s.pc := by
  simp [State.push16]
@[simp] theorem State.push16_inte (s : State) (w : Word) : (s.push16 w).inte = s.inte := by
  simp [State.push16]
@[simp] theorem State.push16_halted (s : State) (w : Word) : (s.push16 w).halted = s.halted := by
  simp [State.push16]
@[simp] theorem State.push16_eiPending (s : State) (w : Word) : (s.push16 w).eiPending = s.eiPending := by
  simp [State.push16]
@[simp] theorem State.push16_faulted (s : State) (w : Word) : (s.push16 w).faulted = s.faulted := by
  simp [State.push16]
@[simp] theorem State.push16_params (s : State) (w : Word) : (s.push16 w).params = s.params := by
  simp [State.push16]
@[simp] theorem State.push16_offers (s : State) (w : Word) : (s.push16 w).offers = s.offers := by
  simp [State.push16]
@[simp] theorem State.push16_inputs (s : State) (w : Word) : (s.push16 w).inputs = s.inputs := by
  simp [State.push16]
@[simp] theorem State.push16_draws (s : State) (w : Word) : (s.push16 w).draws = s.draws := by
  simp [State.push16]
@[simp] theorem State.push16_sp (s : State) (w : Word) : (s.push16 w).sp = s.sp - 2 := rfl

/-- A push writes nothing outside the two bytes below SP. -/
theorem State.push16_byteAt_other (s : State) (w b : Word) (h1 : b ≠ s.sp - 1) (h2 : b ≠ s.sp - 2) :
    (s.push16 w).byteAt b = s.byteAt b := by
  simp only [State.push16, State.withSp_byteAt]
  rw [State.store_byteAt_other _ _ _ _ h2, State.store_byteAt_other _ _ _ _ h1]

/-- A push keeps the canonical form. -/
theorem State.push16_wf (s : State) (w : Word) (h : Memory.wf s.mem = true) : Memory.wf (s.push16 w).mem = true := by
  simp only [State.push16, State.withSp_mem]
  exact State.store_wf _ _ _ (State.store_wf _ _ _ h)

/-- The high byte, the low byte and their join. -/
@[simp] theorem joinBytes_hi_lo (w : Word) : joinBytes (hiByte w) (loByte w) = w := by
  simp only [joinBytes, hiByte, loByte]
  exact BitVec.eq_of_getLsbD_eq fun i hi => by
    simp only [BitVec.getLsbD_append, BitVec.getLsbD_extractLsb']
    by_cases h : i < 8
    · simp [h]
    · simp [h, show i - 8 < 8 by omega, show 8 + (i - 8) = i by omega]

theorem joinBytes_getLsbD (h l : Byte) (i : Nat) : (joinBytes h l).getLsbD i = if i < 8 then l.getLsbD i else h.getLsbD (i - 8) :=
  BitVec.getLsbD_append

@[simp] theorem hiByte_joinBytes (h l : Byte) : hiByte (joinBytes h l) = h := by
  refine BitVec.eq_of_getLsbD_eq fun i hi => ?_
  rw [hiByte, BitVec.getLsbD_extractLsb', joinBytes_getLsbD]
  simp [hi]

@[simp] theorem loByte_joinBytes (h l : Byte) : loByte (joinBytes h l) = l := by
  refine BitVec.eq_of_getLsbD_eq fun i hi => ?_
  rw [loByte, BitVec.getLsbD_extractLsb', joinBytes_getLsbD]
  simp [hi]

end Sys2Proof.Machine
end

