-- ==== Sys2Proof/Laws/Exec.lean ====
section
/-! SUPPORT. What any instruction can do to the environment's part and to memory, said once, and how each shared operation keeps it. -/

namespace Sys2Proof.Machine

/-- What every operation keeps: parameters, offers and the fault mark as they were, the history a prefix, the draws and the answers
only consumed, memory in canonical form, and only RAM written. -/
structure Keeps (s t : State) : Prop where
  params : t.params = s.params
  offers : t.offers = s.offers
  faulted : t.faulted = s.faulted
  history : ∃ events, t.history = s.history ++ events
  draws : s.draws ≤ t.draws
  inputs : ∃ k, t.inputs = s.inputs.drop k
  wf : Memory.wf s.mem = true → Memory.wf t.mem = true
  ram : ∀ a : Word, kindAt s.params a ≠ .ram → t.byteAt a = s.byteAt a

theorem Keeps.refl (s : State) : Keeps s s :=
  ⟨rfl, rfl, rfl, ⟨[], by simp⟩, Nat.le_refl _, ⟨0, rfl⟩, id, fun _ _ => rfl⟩

theorem Keeps.trans {s t u : State} (h : Keeps s t) (k : Keeps t u) : Keeps s u := by
  obtain ⟨e1, h1⟩ := h.history
  obtain ⟨e2, h2⟩ := k.history
  obtain ⟨n1, i1⟩ := h.inputs
  obtain ⟨n2, i2⟩ := k.inputs
  refine ⟨k.params.trans h.params, k.offers.trans h.offers, k.faulted.trans h.faulted, ⟨e1 ++ e2, ?_⟩, h.draws.trans k.draws,
    ⟨n1 + n2, ?_⟩, fun w => k.wf (h.wf w), fun a ha => ?_⟩
  · rw [h2, h1, List.append_assoc]
  · rw [i2, i1, List.drop_drop]
  · rw [k.ram a (h.params ▸ ha), h.ram a ha]

/-- An update of registers, flags, SP, PC or interrupt state keeps all of it. -/
theorem Keeps.of_eq {s t : State} (hp : t.params = s.params) (ho : t.offers = s.offers) (hf : t.faulted = s.faulted)
    (hh : t.history = s.history) (hd : t.draws = s.draws) (hi : t.inputs = s.inputs) (hm : t.mem = s.mem) : Keeps s t :=
  ⟨hp, ho, hf, ⟨[], by simp [hh]⟩, hd ▸ Nat.le_refl _, ⟨0, by simp [hi]⟩, fun w => hm ▸ w,
    fun a _ => by simp [State.byteAt, hm]⟩

theorem Keeps.draw (s : State) : Keeps s s.draw.2 := by
  rcases State.draw_cases s with ⟨v, rest, hi, hd⟩ | ⟨hi, hd⟩
  · rw [hd]
    exact ⟨rfl, rfl, rfl, ⟨[], by simp⟩, Nat.le_succ _, ⟨1, by simp [hi]⟩, id, fun _ _ => rfl⟩
  · rw [hd]
    exact ⟨rfl, rfl, rfl, ⟨[], by simp⟩, Nat.le_succ _, ⟨0, by simp [hi]⟩, id, fun _ _ => rfl⟩

theorem Keeps.record (s : State) (e : IoEvent) : Keeps s (s.record e) :=
  ⟨rfl, rfl, rfl, ⟨[e], rfl⟩, Nat.le_refl _, ⟨0, rfl⟩, id, fun _ _ => rfl⟩

theorem Keeps.load (s : State) (a : Word) : Keeps s (s.load a).2 := by
  rcases State.load_cases s a with h | h | h <;> rw [h]
  · exact Keeps.refl s
  · exact Keeps.draw s
  · exact (Keeps.draw s).trans (Keeps.record _ _)

theorem Keeps.store (s : State) (a : Word) (v : Byte) : Keeps s (s.store a v) := by
  refine ⟨by simp, by simp, by simp, ?_, by simp, ⟨0, by simp⟩, State.store_wf s a v, fun b hb => ?_⟩
  · unfold State.store
    split
    · exact ⟨[], by simp⟩
    · exact ⟨[], by simp⟩
    · exact ⟨[], by simp⟩
    · exact ⟨[_], rfl⟩
  · by_cases h : b = a
    · subst h
      simp [State.byteAt, State.store_mem_of_not_ram s b v hb]
    · exact State.store_byteAt_other s a b v h

theorem Keeps.load16 (s : State) (a : Word) : Keeps s (s.load16 a).2 := (Keeps.load s a).trans (Keeps.load _ _)

theorem Keeps.store16 (s : State) (a w : Word) : Keeps s (s.store16 a w) := (Keeps.store s a _).trans (Keeps.store _ _ _)

theorem Keeps.push16 (s : State) (w : Word) : Keeps s (s.push16 w) :=
  ((Keeps.store s _ _).trans (Keeps.store _ _ _)).trans (Keeps.of_eq rfl rfl rfl rfl rfl rfl rfl)

theorem Keeps.pop16 (s : State) : Keeps s s.pop16.2 :=
  (Keeps.load16 s _).trans (Keeps.of_eq rfl rfl rfl rfl rfl rfl rfl)

theorem Keeps.ioRead (s : State) (p : Byte) : Keeps s (s.ioRead p).2 := (Keeps.draw s).trans (Keeps.record _ _)

theorem Keeps.goto {s t : State} (h : Keeps s t) (w : Word) : Keeps s (t.goto w) :=
  h.trans (Keeps.of_eq rfl rfl rfl rfl rfl rfl rfl)

theorem Keeps.advance {s t : State} (h : Keeps s t) (n : Word) : Keeps s (t.advance n) := h.goto _

theorem Keeps.withRegs {s t : State} (h : Keeps s t) (r : Regs) : Keeps s (t.withRegs r) :=
  h.trans (Keeps.of_eq rfl rfl rfl rfl rfl rfl rfl)

theorem Keeps.withFlags {s t : State} (h : Keeps s t) (f : Flags) : Keeps s (t.withFlags f) :=
  h.trans (Keeps.of_eq rfl rfl rfl rfl rfl rfl rfl)

theorem Keeps.withSp {s t : State} (h : Keeps s t) (w : Word) : Keeps s (t.withSp w) :=
  h.trans (Keeps.of_eq rfl rfl rfl rfl rfl rfl rfl)

theorem Keeps.setReg {s t : State} (h : Keeps s t) (r : Reg) (v : Byte) : Keeps s (t.setReg r v) := by
  cases r <;> exact h.withRegs _

theorem Keeps.setPair {s t : State} (h : Keeps s t) (p : RegPair) (w : Word) : Keeps s (t.setPair p w) := by
  cases p <;> first | exact h.withRegs _ | exact h.withSp _

theorem Keeps.returnToCaller (s : State) : Keeps s s.returnToCaller := (Keeps.pop16 s).goto _

theorem Keeps.callTo (s : State) (n w : Word) : Keeps s (s.callTo n w) := (Keeps.push16 s _).goto _

theorem Keeps.jumpIf (s : State) (b : Bool) (w : Word) : Keeps s (s.jumpIf b w) := by
  cases b
  · exact (Keeps.refl s).advance _
  · exact (Keeps.refl s).goto _

theorem Keeps.callIf (s : State) (b : Bool) (w : Word) : Keeps s (s.callIf b w) := by
  cases b
  · exact (Keeps.refl s).advance _
  · exact Keeps.callTo s _ _

theorem Keeps.returnIf (s : State) (b : Bool) : Keeps s (s.returnIf b) := by
  cases b
  · exact (Keeps.refl s).advance _
  · exact Keeps.returnToCaller s

/-- An undefined first byte runs only as its alias. -/
theorem undefinedFirstByte_next {op : Byte} {s aliased t : State} (h : undefinedFirstByte op s aliased = .next t) :
    s.params.undoc = .alias_ ∧ t = aliased := by
  unfold undefinedFirstByte at h
  split at h
  · cases h
  · rename_i hp
    cases h
    exact ⟨hp, rfl⟩

/-- An undefined first byte faults only under the fault policy. -/
theorem undefinedFirstByte_fault {op : Byte} {s aliased : State} {f : Fault} (h : undefinedFirstByte op s aliased = .fault f) :
    s.params.undoc = .fault ∧ f = .undefinedOpcode op s.pc := by
  unfold undefinedFirstByte at h
  split at h
  · rename_i hp
    cases h
    exact ⟨hp, rfl⟩
  · cases h

/-- No instruction that runs does more than `Keeps` allows. -/
theorem exec_keeps (i : Instr) {s t : State} (h : exec i s = .next t) : Keeps s t := by
  cases i with
  | movRR dst src => cases h; exact ((Keeps.refl s).setReg _ _).advance _
  | movRM dst => cases h; exact ((Keeps.load s _).setReg _ _).advance _
  | movMR src => cases h; exact (Keeps.store s _ _).advance _
  | mviR dst imm => cases h; exact ((Keeps.refl s).setReg _ _).advance _
  | mviM imm => cases h; exact (Keeps.store s _ _).advance _
  | lda adr => cases h; exact ((Keeps.load s _).setReg _ _).advance _
  | sta adr => cases h; exact (Keeps.store s _ _).advance _
  | ldax pair => cases pair <;> cases h <;> exact ((Keeps.load s _).setReg .a _).advance _
  | stax pair => cases pair <;> cases h <;> exact (Keeps.store s _ _).advance _
  | lhld adr => cases h; exact ((Keeps.load16 s _).setPair .hl _).advance _
  | shld adr => cases h; exact (Keeps.store16 s _ _).advance _
  | lxi pair imm => cases h; exact ((Keeps.refl s).setPair _ _).advance _
  | pushRp pair => cases pair <;> cases h <;> exact (Keeps.push16 s _).advance _
  | pushPsw => cases h; exact (Keeps.push16 s _).advance _
  | popRp pair => cases pair <;> cases h <;> exact ((Keeps.pop16 s).setPair _ _).advance _
  | popPsw => cases h; exact (((Keeps.pop16 s).setReg .a _).withFlags _).advance _
  | xthl => cases h; exact ((((Keeps.load16 s _).trans (Keeps.store _ _ _)).trans (Keeps.store _ _ _)).setPair .hl _).advance _
  | sphl => cases h; exact ((Keeps.refl s).withSp _).advance _
  | pchl => cases h; exact (Keeps.refl s).goto _
  | xchg => cases h; exact (((Keeps.refl s).setPair .hl _).setPair .de _).advance _
  | addR src => cases h; exact (((Keeps.refl s).withRegs _).withFlags _).advance _
  | addM => cases h; exact (((Keeps.load s _).withRegs _).withFlags _).advance _
  | adcR src => cases h; exact (((Keeps.refl s).withRegs _).withFlags _).advance _
  | adcM => cases h; exact (((Keeps.load s _).withRegs _).withFlags _).advance _
  | subR src => cases h; exact (((Keeps.refl s).withRegs _).withFlags _).advance _
  | subM => cases h; exact (((Keeps.load s _).withRegs _).withFlags _).advance _
  | sbbR src => cases h; exact (((Keeps.refl s).withRegs _).withFlags _).advance _
  | sbbM => cases h; exact (((Keeps.load s _).withRegs _).withFlags _).advance _
  | anaR src => cases h; exact (((Keeps.refl s).withRegs _).withFlags _).advance _
  | anaM => cases h; exact (((Keeps.load s _).withRegs _).withFlags _).advance _
  | xraR src => cases h; exact (((Keeps.refl s).withRegs _).withFlags _).advance _
  | xraM => cases h; exact (((Keeps.load s _).withRegs _).withFlags _).advance _
  | oraR src => cases h; exact (((Keeps.refl s).withRegs _).withFlags _).advance _
  | oraM => cases h; exact (((Keeps.load s _).withRegs _).withFlags _).advance _
  | cmpR src => cases h; exact ((Keeps.refl s).withFlags _).advance _
  | cmpM => cases h; exact ((Keeps.load s _).withFlags _).advance _
  | inrR dst => cases h; exact (((Keeps.refl s).setReg _ _).withFlags _).advance _
  | inrM => cases h; exact (((Keeps.load s _).trans (Keeps.store _ _ _)).withFlags _).advance _
  | dcrR dst => cases h; exact (((Keeps.refl s).setReg _ _).withFlags _).advance _
  | dcrM => cases h; exact (((Keeps.load s _).trans (Keeps.store _ _ _)).withFlags _).advance _
  | adi imm => cases h; exact (((Keeps.refl s).withRegs _).withFlags _).advance _
  | aci imm => cases h; exact (((Keeps.refl s).withRegs _).withFlags _).advance _
  | sui imm => cases h; exact (((Keeps.refl s).withRegs _).withFlags _).advance _
  | sbi imm => cases h; exact (((Keeps.refl s).withRegs _).withFlags _).advance _
  | ani imm => cases h; exact (((Keeps.refl s).withRegs _).withFlags _).advance _
  | xri imm => cases h; exact (((Keeps.refl s).withRegs _).withFlags _).advance _
  | ori imm => cases h; exact (((Keeps.refl s).withRegs _).withFlags _).advance _
  | cpi imm => cases h; exact ((Keeps.refl s).withFlags _).advance _
  | daa => cases h; exact (((Keeps.refl s).withRegs _).withFlags _).advance _
  | dad pair => cases h; exact (((Keeps.refl s).setPair .hl _).withFlags _).advance _
  | inx pair => cases h; exact ((Keeps.refl s).setPair _ _).advance _
  | dcx pair => cases h; exact ((Keeps.refl s).setPair _ _).advance _
  | jmp adr => cases h; exact (Keeps.refl s).goto _
  | call adr => cases h; exact Keeps.callTo s _ _
  | ret => cases h; exact Keeps.returnToCaller s
  | jnz adr => cases h; exact Keeps.jumpIf s _ _
  | jz adr => cases h; exact Keeps.jumpIf s _ _
  | jnc adr => cases h; exact Keeps.jumpIf s _ _
  | jc adr => cases h; exact Keeps.jumpIf s _ _
  | jpo adr => cases h; exact Keeps.jumpIf s _ _
  | jpe adr => cases h; exact Keeps.jumpIf s _ _
  | jp adr => cases h; exact Keeps.jumpIf s _ _
  | jm adr => cases h; exact Keeps.jumpIf s _ _
  | cnz adr => cases h; exact Keeps.callIf s _ _
  | cz adr => cases h; exact Keeps.callIf s _ _
  | cnc adr => cases h; exact Keeps.callIf s _ _
  | cc adr => cases h; exact Keeps.callIf s _ _
  | cpo adr => cases h; exact Keeps.callIf s _ _
  | cpe adr => cases h; exact Keeps.callIf s _ _
  | cp adr => cases h; exact Keeps.callIf s _ _
  | cm adr => cases h; exact Keeps.callIf s _ _
  | rnz => cases h; exact Keeps.returnIf s _
  | rz => cases h; exact Keeps.returnIf s _
  | rnc => cases h; exact Keeps.returnIf s _
  | rc => cases h; exact Keeps.returnIf s _
  | rpo => cases h; exact Keeps.returnIf s _
  | rpe => cases h; exact Keeps.returnIf s _
  | rp => cases h; exact Keeps.returnIf s _
  | rm => cases h; exact Keeps.returnIf s _
  | rlc => cases h; exact (((Keeps.refl s).withRegs _).withFlags _).advance _
  | rrc => cases h; exact (((Keeps.refl s).withRegs _).withFlags _).advance _
  | ral => cases h; exact (((Keeps.refl s).withRegs _).withFlags _).advance _
  | rar => cases h; exact (((Keeps.refl s).withRegs _).withFlags _).advance _
  | inPort port => cases h; exact ((Keeps.ioRead s _).setReg .a _).advance _
  | outPort port => cases h; exact (Keeps.record s _).advance _
  | stc => cases h; exact ((Keeps.refl s).withFlags _).advance _
  | cmc => cases h; exact ((Keeps.refl s).withFlags _).advance _
  | cma => cases h; exact ((Keeps.refl s).setReg _ _).advance _
  | nop => cases h; exact (Keeps.refl s).advance _
  | hlt => cases h; exact Keeps.of_eq rfl rfl rfl rfl rfl rfl rfl
  | di => cases h; exact Keeps.of_eq rfl rfl rfl rfl rfl rfl rfl
  | ei => cases h; exact Keeps.of_eq rfl rfl rfl rfl rfl rfl rfl
  | rst n => cases h; exact Keeps.callTo s _ _
  | undef08 => exact (undefinedFirstByte_next h).2 ▸ (Keeps.refl s).advance _
  | undef10 => exact (undefinedFirstByte_next h).2 ▸ (Keeps.refl s).advance _
  | undef18 => exact (undefinedFirstByte_next h).2 ▸ (Keeps.refl s).advance _
  | undef20 => exact (undefinedFirstByte_next h).2 ▸ (Keeps.refl s).advance _
  | undef28 => exact (undefinedFirstByte_next h).2 ▸ (Keeps.refl s).advance _
  | undef30 => exact (undefinedFirstByte_next h).2 ▸ (Keeps.refl s).advance _
  | undef38 => exact (undefinedFirstByte_next h).2 ▸ (Keeps.refl s).advance _
  | undefCB adr => exact (undefinedFirstByte_next h).2 ▸ (Keeps.refl s).goto _
  | undefD9 => exact (undefinedFirstByte_next h).2 ▸ Keeps.returnToCaller s
  | undefDD adr => exact (undefinedFirstByte_next h).2 ▸ Keeps.callTo s _ _
  | undefED adr => exact (undefinedFirstByte_next h).2 ▸ Keeps.callTo s _ _
  | undefFD adr => exact (undefinedFirstByte_next h).2 ▸ Keeps.callTo s _ _

end Sys2Proof.Machine
end

