-- ==== Sys2Proof/Laws/Flags.lean ====
section
/-! SUPPORT. The fields of the flag computations and of the operations on A, HL and memory operands, once for each. -/

namespace Sys2Proof.Machine

@[simp] theorem setZSP_z (v : Byte) (f : Flags) : (setZSP v f).z = (v == 0x00) := rfl
@[simp] theorem setZSP_s (v : Byte) (f : Flags) : (setZSP v f).s = (v.getLsbD 7) := rfl
@[simp] theorem setZSP_p (v : Byte) (f : Flags) : (setZSP v f).p = (parity8 v) := rfl
@[simp] theorem setZSP_ac (v : Byte) (f : Flags) : (setZSP v f).ac = f.ac := rfl
@[simp] theorem setZSP_cy (v : Byte) (f : Flags) : (setZSP v f).cy = f.cy := rfl
@[simp] theorem arithFlags_z (r : Alu) (f : Flags) : (arithFlags r f).z = (r.res == 0x00) := rfl
@[simp] theorem arithFlags_s (r : Alu) (f : Flags) : (arithFlags r f).s = (r.res.getLsbD 7) := rfl
@[simp] theorem arithFlags_p (r : Alu) (f : Flags) : (arithFlags r f).p = (parity8 r.res) := rfl
@[simp] theorem arithFlags_ac (r : Alu) (f : Flags) : (arithFlags r f).ac = r.ac := rfl
@[simp] theorem arithFlags_cy (r : Alu) (f : Flags) : (arithFlags r f).cy = r.cy := rfl
@[simp] theorem stepFlags_z (r : Alu) (f : Flags) : (stepFlags r f).z = (r.res == 0x00) := rfl
@[simp] theorem stepFlags_s (r : Alu) (f : Flags) : (stepFlags r f).s = (r.res.getLsbD 7) := rfl
@[simp] theorem stepFlags_p (r : Alu) (f : Flags) : (stepFlags r f).p = (parity8 r.res) := rfl
@[simp] theorem stepFlags_ac (r : Alu) (f : Flags) : (stepFlags r f).ac = r.ac := rfl
@[simp] theorem stepFlags_cy (r : Alu) (f : Flags) : (stepFlags r f).cy = f.cy := rfl
@[simp] theorem flagsLogic_z (v : Byte) (c : Bool) (f : Flags) : (flagsLogic v c f).z = (v == 0x00) := rfl
@[simp] theorem flagsLogic_s (v : Byte) (c : Bool) (f : Flags) : (flagsLogic v c f).s = (v.getLsbD 7) := rfl
@[simp] theorem flagsLogic_p (v : Byte) (c : Bool) (f : Flags) : (flagsLogic v c f).p = (parity8 v) := rfl
@[simp] theorem flagsLogic_ac (v : Byte) (c : Bool) (f : Flags) : (flagsLogic v c f).ac = c := rfl
@[simp] theorem flagsLogic_cy (v : Byte) (c : Bool) (f : Flags) : (flagsLogic v c f).cy = false := rfl

/-- A and the five flags from an arithmetic result. -/
theorem State.accumulate_eq (s : State) (r : Alu) :
    s.accumulate r = { s with regs := { s.regs with a := r.res }, flags := arithFlags r s.flags } := rfl
/-- The five flags from a comparison. -/
theorem State.compare_eq (s : State) (r : Alu) : s.compare r = { s with flags := arithFlags r s.flags } := rfl
/-- A and the five flags from AND. -/
theorem State.andA_eq (s : State) (v : Byte) :
    s.andA v =
      { s with
        regs := { s.regs with a := s.regs.a &&& v }
        flags := flagsLogic (s.regs.a &&& v) (acAfterAnd s.params.acAnd s.regs.a v) s.flags } := rfl
/-- A and the five flags from exclusive OR. -/
theorem State.xorA_eq (s : State) (v : Byte) :
    s.xorA v = { s with regs := { s.regs with a := s.regs.a ^^^ v }, flags := flagsLogic (s.regs.a ^^^ v) false s.flags } := rfl
/-- A and the five flags from OR. -/
theorem State.orA_eq (s : State) (v : Byte) :
    s.orA v = { s with regs := { s.regs with a := s.regs.a ||| v }, flags := flagsLogic (s.regs.a ||| v) false s.flags } := rfl
/-- A and CY from a rotate. -/
theorem State.rotated_eq (s : State) (a : Byte) (cy : Bool) :
    s.rotated a cy = { s with regs := { s.regs with a := a }, flags := { s.flags with cy := cy } } := rfl
/-- HL and CY from DAD. -/
theorem State.addHl_eq (s : State) (w : Word) :
    s.addHl w =
      { s with
        regs := { s.regs with h := hiByte (s.hl + w), l := loByte (s.hl + w) }
        flags := { s.flags with cy := decide (s.hl.toNat + w.toNat > 65535) } } := rfl
/-- The operand M as a source. -/
theorem State.onM_eq (s : State) (f : Byte → State → State) : s.onM f = f (s.load s.hl).1 (s.load s.hl).2 := rfl
/-- The operand M as a destination. -/
theorem State.storeM_eq (s : State) (v : Byte) : s.storeM v = s.store s.hl v := rfl
/-- HL is its two registers. -/
theorem State.hl_eq (s : State) : s.hl = joinBytes s.regs.h s.regs.l := rfl
/-- A pair is its two registers, or SP. -/
theorem State.getPair_setPair_same (s : State) (p : RegPair) (w : Word) : (s.setPair p w).getPair p = joinBytes (hiByte w) (loByte w) ∨
    (p = .sp ∧ (s.setPair p w).getPair p = w) := by
  cases p
  · exact .inl rfl
  · exact .inl rfl
  · exact .inl rfl
  · exact .inr ⟨rfl, rfl⟩
/-- A write to one pair leaves every other as it was. -/
theorem State.getPair_setPair_other (s : State) {p q : RegPair} (w : Word) (h : q ≠ p) : (s.setPair p w).getPair q = s.getPair q := by
  cases p <;> cases q <;> first | rfl | exact absurd rfl h

end Sys2Proof.Machine
end

