-- ==== Sys2Proof/Laws/PerInstr.lean ====
section
/-! SUPPORT. A statement about every instruction, lemma by lemma: the length its first byte gives is the number of its bytes. -/

namespace Sys2Proof.Laws.EncodedLength

/-- The first byte of a well-formed instruction alone gives the number of its bytes (30_encoding.md R80, R81). -/
def Statement (i : Instr) : Prop :=
  i.wellFormed = true → ∃ op operands, encode i = op :: operands ∧ opLength op = operands.length + 1

theorem movRR (dst src : Reg) : Statement (.movRR dst src) := by
  intro _
  cases dst <;> cases src <;> exact ⟨_, _, rfl, (by decide : opLength _ = 1)⟩
theorem movRM (dst : Reg) : Statement (.movRM dst) := by
  intro _
  cases dst <;> exact ⟨_, _, rfl, (by decide : opLength _ = 1)⟩
theorem movMR (src : Reg) : Statement (.movMR src) := by
  intro _
  cases src <;> exact ⟨_, _, rfl, (by decide : opLength _ = 1)⟩
theorem mviR (dst : Reg) (imm : Byte) : Statement (.mviR dst imm) := by
  intro _
  cases dst <;> exact ⟨_, _, rfl, (by decide : opLength _ = 2)⟩
theorem mviM (imm : Byte) : Statement (.mviM imm) := fun _ => ⟨_, _, rfl, (by decide : opLength _ = 2)⟩
theorem lda (adr : Word) : Statement (.lda adr) := fun _ => ⟨_, _, rfl, (by decide : opLength _ = 3)⟩
theorem sta (adr : Word) : Statement (.sta adr) := fun _ => ⟨_, _, rfl, (by decide : opLength _ = 3)⟩
theorem ldax (pair : RegPair) : Statement (.ldax pair) := by
  intro h
  cases pair <;> first | exact ⟨_, _, rfl, (by decide : opLength _ = 1)⟩ | exact absurd h (by decide)
theorem stax (pair : RegPair) : Statement (.stax pair) := by
  intro h
  cases pair <;> first | exact ⟨_, _, rfl, (by decide : opLength _ = 1)⟩ | exact absurd h (by decide)
theorem lhld (adr : Word) : Statement (.lhld adr) := fun _ => ⟨_, _, rfl, (by decide : opLength _ = 3)⟩
theorem shld (adr : Word) : Statement (.shld adr) := fun _ => ⟨_, _, rfl, (by decide : opLength _ = 3)⟩
theorem lxi (pair : RegPair) (imm : Word) : Statement (.lxi pair imm) := by
  intro _
  cases pair <;> exact ⟨_, _, rfl, (by decide : opLength _ = 3)⟩
theorem pushRp (pair : RegPair) : Statement (.pushRp pair) := by
  intro _
  cases pair <;> exact ⟨_, _, rfl, (by decide : opLength _ = 1)⟩
theorem pushPsw : Statement .pushPsw := fun _ => ⟨_, _, rfl, (by decide : opLength _ = 1)⟩
theorem popRp (pair : RegPair) : Statement (.popRp pair) := by
  intro _
  cases pair <;> exact ⟨_, _, rfl, (by decide : opLength _ = 1)⟩
theorem popPsw : Statement .popPsw := fun _ => ⟨_, _, rfl, (by decide : opLength _ = 1)⟩
theorem xthl : Statement .xthl := fun _ => ⟨_, _, rfl, (by decide : opLength _ = 1)⟩
theorem sphl : Statement .sphl := fun _ => ⟨_, _, rfl, (by decide : opLength _ = 1)⟩
theorem pchl : Statement .pchl := fun _ => ⟨_, _, rfl, (by decide : opLength _ = 1)⟩
theorem xchg : Statement .xchg := fun _ => ⟨_, _, rfl, (by decide : opLength _ = 1)⟩
theorem addR (src : Reg) : Statement (.addR src) := by
  intro _
  cases src <;> exact ⟨_, _, rfl, (by decide : opLength _ = 1)⟩
theorem addM : Statement .addM := fun _ => ⟨_, _, rfl, (by decide : opLength _ = 1)⟩
theorem adcR (src : Reg) : Statement (.adcR src) := by
  intro _
  cases src <;> exact ⟨_, _, rfl, (by decide : opLength _ = 1)⟩
theorem adcM : Statement .adcM := fun _ => ⟨_, _, rfl, (by decide : opLength _ = 1)⟩
theorem subR (src : Reg) : Statement (.subR src) := by
  intro _
  cases src <;> exact ⟨_, _, rfl, (by decide : opLength _ = 1)⟩
theorem subM : Statement .subM := fun _ => ⟨_, _, rfl, (by decide : opLength _ = 1)⟩
theorem sbbR (src : Reg) : Statement (.sbbR src) := by
  intro _
  cases src <;> exact ⟨_, _, rfl, (by decide : opLength _ = 1)⟩
theorem sbbM : Statement .sbbM := fun _ => ⟨_, _, rfl, (by decide : opLength _ = 1)⟩
theorem anaR (src : Reg) : Statement (.anaR src) := by
  intro _
  cases src <;> exact ⟨_, _, rfl, (by decide : opLength _ = 1)⟩
theorem anaM : Statement .anaM := fun _ => ⟨_, _, rfl, (by decide : opLength _ = 1)⟩
theorem xraR (src : Reg) : Statement (.xraR src) := by
  intro _
  cases src <;> exact ⟨_, _, rfl, (by decide : opLength _ = 1)⟩
theorem xraM : Statement .xraM := fun _ => ⟨_, _, rfl, (by decide : opLength _ = 1)⟩
theorem oraR (src : Reg) : Statement (.oraR src) := by
  intro _
  cases src <;> exact ⟨_, _, rfl, (by decide : opLength _ = 1)⟩
theorem oraM : Statement .oraM := fun _ => ⟨_, _, rfl, (by decide : opLength _ = 1)⟩
theorem cmpR (src : Reg) : Statement (.cmpR src) := by
  intro _
  cases src <;> exact ⟨_, _, rfl, (by decide : opLength _ = 1)⟩
theorem cmpM : Statement .cmpM := fun _ => ⟨_, _, rfl, (by decide : opLength _ = 1)⟩
theorem inrR (dst : Reg) : Statement (.inrR dst) := by
  intro _
  cases dst <;> exact ⟨_, _, rfl, (by decide : opLength _ = 1)⟩
theorem inrM : Statement .inrM := fun _ => ⟨_, _, rfl, (by decide : opLength _ = 1)⟩
theorem dcrR (dst : Reg) : Statement (.dcrR dst) := by
  intro _
  cases dst <;> exact ⟨_, _, rfl, (by decide : opLength _ = 1)⟩
theorem dcrM : Statement .dcrM := fun _ => ⟨_, _, rfl, (by decide : opLength _ = 1)⟩
theorem adi (imm : Byte) : Statement (.adi imm) := fun _ => ⟨_, _, rfl, (by decide : opLength _ = 2)⟩
theorem aci (imm : Byte) : Statement (.aci imm) := fun _ => ⟨_, _, rfl, (by decide : opLength _ = 2)⟩
theorem sui (imm : Byte) : Statement (.sui imm) := fun _ => ⟨_, _, rfl, (by decide : opLength _ = 2)⟩
theorem sbi (imm : Byte) : Statement (.sbi imm) := fun _ => ⟨_, _, rfl, (by decide : opLength _ = 2)⟩
theorem ani (imm : Byte) : Statement (.ani imm) := fun _ => ⟨_, _, rfl, (by decide : opLength _ = 2)⟩
theorem xri (imm : Byte) : Statement (.xri imm) := fun _ => ⟨_, _, rfl, (by decide : opLength _ = 2)⟩
theorem ori (imm : Byte) : Statement (.ori imm) := fun _ => ⟨_, _, rfl, (by decide : opLength _ = 2)⟩
theorem cpi (imm : Byte) : Statement (.cpi imm) := fun _ => ⟨_, _, rfl, (by decide : opLength _ = 2)⟩
theorem daa : Statement .daa := fun _ => ⟨_, _, rfl, (by decide : opLength _ = 1)⟩
theorem dad (pair : RegPair) : Statement (.dad pair) := by
  intro _
  cases pair <;> exact ⟨_, _, rfl, (by decide : opLength _ = 1)⟩
theorem inx (pair : RegPair) : Statement (.inx pair) := by
  intro _
  cases pair <;> exact ⟨_, _, rfl, (by decide : opLength _ = 1)⟩
theorem dcx (pair : RegPair) : Statement (.dcx pair) := by
  intro _
  cases pair <;> exact ⟨_, _, rfl, (by decide : opLength _ = 1)⟩
theorem jmp (adr : Word) : Statement (.jmp adr) := fun _ => ⟨_, _, rfl, (by decide : opLength _ = 3)⟩
theorem call (adr : Word) : Statement (.call adr) := fun _ => ⟨_, _, rfl, (by decide : opLength _ = 3)⟩
theorem ret : Statement .ret := fun _ => ⟨_, _, rfl, (by decide : opLength _ = 1)⟩
theorem jnz (adr : Word) : Statement (.jnz adr) := fun _ => ⟨_, _, rfl, (by decide : opLength _ = 3)⟩
theorem jz (adr : Word) : Statement (.jz adr) := fun _ => ⟨_, _, rfl, (by decide : opLength _ = 3)⟩
theorem jnc (adr : Word) : Statement (.jnc adr) := fun _ => ⟨_, _, rfl, (by decide : opLength _ = 3)⟩
theorem jc (adr : Word) : Statement (.jc adr) := fun _ => ⟨_, _, rfl, (by decide : opLength _ = 3)⟩
theorem jpo (adr : Word) : Statement (.jpo adr) := fun _ => ⟨_, _, rfl, (by decide : opLength _ = 3)⟩
theorem jpe (adr : Word) : Statement (.jpe adr) := fun _ => ⟨_, _, rfl, (by decide : opLength _ = 3)⟩
theorem jp (adr : Word) : Statement (.jp adr) := fun _ => ⟨_, _, rfl, (by decide : opLength _ = 3)⟩
theorem jm (adr : Word) : Statement (.jm adr) := fun _ => ⟨_, _, rfl, (by decide : opLength _ = 3)⟩
theorem cnz (adr : Word) : Statement (.cnz adr) := fun _ => ⟨_, _, rfl, (by decide : opLength _ = 3)⟩
theorem cz (adr : Word) : Statement (.cz adr) := fun _ => ⟨_, _, rfl, (by decide : opLength _ = 3)⟩
theorem cnc (adr : Word) : Statement (.cnc adr) := fun _ => ⟨_, _, rfl, (by decide : opLength _ = 3)⟩
theorem cc (adr : Word) : Statement (.cc adr) := fun _ => ⟨_, _, rfl, (by decide : opLength _ = 3)⟩
theorem cpo (adr : Word) : Statement (.cpo adr) := fun _ => ⟨_, _, rfl, (by decide : opLength _ = 3)⟩
theorem cpe (adr : Word) : Statement (.cpe adr) := fun _ => ⟨_, _, rfl, (by decide : opLength _ = 3)⟩
theorem cp (adr : Word) : Statement (.cp adr) := fun _ => ⟨_, _, rfl, (by decide : opLength _ = 3)⟩
theorem cm (adr : Word) : Statement (.cm adr) := fun _ => ⟨_, _, rfl, (by decide : opLength _ = 3)⟩
theorem rnz : Statement .rnz := fun _ => ⟨_, _, rfl, (by decide : opLength _ = 1)⟩
theorem rz : Statement .rz := fun _ => ⟨_, _, rfl, (by decide : opLength _ = 1)⟩
theorem rnc : Statement .rnc := fun _ => ⟨_, _, rfl, (by decide : opLength _ = 1)⟩
theorem rc : Statement .rc := fun _ => ⟨_, _, rfl, (by decide : opLength _ = 1)⟩
theorem rpo : Statement .rpo := fun _ => ⟨_, _, rfl, (by decide : opLength _ = 1)⟩
theorem rpe : Statement .rpe := fun _ => ⟨_, _, rfl, (by decide : opLength _ = 1)⟩
theorem rp : Statement .rp := fun _ => ⟨_, _, rfl, (by decide : opLength _ = 1)⟩
theorem rm : Statement .rm := fun _ => ⟨_, _, rfl, (by decide : opLength _ = 1)⟩
theorem rlc : Statement .rlc := fun _ => ⟨_, _, rfl, (by decide : opLength _ = 1)⟩
theorem rrc : Statement .rrc := fun _ => ⟨_, _, rfl, (by decide : opLength _ = 1)⟩
theorem ral : Statement .ral := fun _ => ⟨_, _, rfl, (by decide : opLength _ = 1)⟩
theorem rar : Statement .rar := fun _ => ⟨_, _, rfl, (by decide : opLength _ = 1)⟩
theorem inPort (port : Byte) : Statement (.inPort port) := fun _ => ⟨_, _, rfl, (by decide : opLength _ = 2)⟩
theorem outPort (port : Byte) : Statement (.outPort port) := fun _ => ⟨_, _, rfl, (by decide : opLength _ = 2)⟩
theorem stc : Statement .stc := fun _ => ⟨_, _, rfl, (by decide : opLength _ = 1)⟩
theorem cmc : Statement .cmc := fun _ => ⟨_, _, rfl, (by decide : opLength _ = 1)⟩
theorem cma : Statement .cma := fun _ => ⟨_, _, rfl, (by decide : opLength _ = 1)⟩
theorem nop : Statement .nop := fun _ => ⟨_, _, rfl, (by decide : opLength _ = 1)⟩
theorem hlt : Statement .hlt := fun _ => ⟨_, _, rfl, (by decide : opLength _ = 1)⟩
theorem di : Statement .di := fun _ => ⟨_, _, rfl, (by decide : opLength _ = 1)⟩
theorem ei : Statement .ei := fun _ => ⟨_, _, rfl, (by decide : opLength _ = 1)⟩
theorem rst (n : BitVec 3) : Statement (.rst n) := by
  have h : ∀ n : BitVec 3, opLength (0b11#2 ++ n ++ 0b111#3) = 1 := by decide
  exact fun _ => ⟨_, _, rfl, h n⟩
theorem undef08 : Statement .undef08 := fun _ => ⟨_, _, rfl, (by decide : opLength _ = 1)⟩
theorem undef10 : Statement .undef10 := fun _ => ⟨_, _, rfl, (by decide : opLength _ = 1)⟩
theorem undef18 : Statement .undef18 := fun _ => ⟨_, _, rfl, (by decide : opLength _ = 1)⟩
theorem undef20 : Statement .undef20 := fun _ => ⟨_, _, rfl, (by decide : opLength _ = 1)⟩
theorem undef28 : Statement .undef28 := fun _ => ⟨_, _, rfl, (by decide : opLength _ = 1)⟩
theorem undef30 : Statement .undef30 := fun _ => ⟨_, _, rfl, (by decide : opLength _ = 1)⟩
theorem undef38 : Statement .undef38 := fun _ => ⟨_, _, rfl, (by decide : opLength _ = 1)⟩
theorem undefCB (adr : Word) : Statement (.undefCB adr) := fun _ => ⟨_, _, rfl, (by decide : opLength _ = 3)⟩
theorem undefD9 : Statement .undefD9 := fun _ => ⟨_, _, rfl, (by decide : opLength _ = 1)⟩
theorem undefDD (adr : Word) : Statement (.undefDD adr) := fun _ => ⟨_, _, rfl, (by decide : opLength _ = 3)⟩
theorem undefED (adr : Word) : Statement (.undefED adr) := fun _ => ⟨_, _, rfl, (by decide : opLength _ = 3)⟩
theorem undefFD (adr : Word) : Statement (.undefFD adr) := fun _ => ⟨_, _, rfl, (by decide : opLength _ = 3)⟩

end Sys2Proof.Laws.EncodedLength
end

