-- ==== Sys2Proof/Laws/Step.lean ====
section
/-! SUPPORT. What a step can do, said once: what taking an offer, reading the bytes of an instruction and marking a fault change, and
the cases of a step. -/

namespace Sys2Proof.Machine

/-! ### Taking an offer -/

/-- Taking an offer changes the list of offers, by its first entry, and may take a free value; nothing else. -/
theorem State.takeOffer_eq (s : State) :
    s.takeOffer.2 = { s with offers := s.offers.tail, draws := s.takeOffer.2.draws } := by
  rcases s with ⟨r, f, sp, pc, i, h, e, m, fa, hi, p, o, inp, d⟩
  cases o with
  | cons o rest => rfl
  | nil =>
    unfold State.takeOffer
    dsimp only
    split <;> rfl

theorem State.takeOffer_draws (s : State) : s.draws ≤ s.takeOffer.2.draws := by
  unfold State.takeOffer
  split
  · exact Nat.le_refl _
  · split
    · exact Nat.le_succ _
    · exact Nat.le_refl _

@[simp] theorem State.takeOffer_regs (s : State) : s.takeOffer.2.regs = s.regs := by rw [s.takeOffer_eq]
@[simp] theorem State.takeOffer_flags (s : State) : s.takeOffer.2.flags = s.flags := by rw [s.takeOffer_eq]
@[simp] theorem State.takeOffer_sp (s : State) : s.takeOffer.2.sp = s.sp := by rw [s.takeOffer_eq]
@[simp] theorem State.takeOffer_pc (s : State) : s.takeOffer.2.pc = s.pc := by rw [s.takeOffer_eq]
@[simp] theorem State.takeOffer_inte (s : State) : s.takeOffer.2.inte = s.inte := by rw [s.takeOffer_eq]
@[simp] theorem State.takeOffer_halted (s : State) : s.takeOffer.2.halted = s.halted := by rw [s.takeOffer_eq]
@[simp] theorem State.takeOffer_eiPending (s : State) : s.takeOffer.2.eiPending = s.eiPending := by rw [s.takeOffer_eq]
@[simp] theorem State.takeOffer_mem (s : State) : s.takeOffer.2.mem = s.mem := by rw [s.takeOffer_eq]
@[simp] theorem State.takeOffer_faulted (s : State) : s.takeOffer.2.faulted = s.faulted := by rw [s.takeOffer_eq]
@[simp] theorem State.takeOffer_history (s : State) : s.takeOffer.2.history = s.history := by rw [s.takeOffer_eq]
@[simp] theorem State.takeOffer_params (s : State) : s.takeOffer.2.params = s.params := by rw [s.takeOffer_eq]
@[simp] theorem State.takeOffer_offers (s : State) : s.takeOffer.2.offers = s.offers.tail := by rw [s.takeOffer_eq]
@[simp] theorem State.takeOffer_inputs (s : State) : s.takeOffer.2.inputs = s.inputs := by rw [s.takeOffer_eq]
@[simp] theorem State.takeOffer_byteAt (s : State) (a : Word) : s.takeOffer.2.byteAt a = s.byteAt a := by simp [State.byteAt]

/-- Where no request would be accepted, taking an offer takes no free value. -/
theorem State.takeOffer_of_not_enabled {s : State} (h : s.acceptEnabled = false) :
    s.takeOffer.2 = { s with offers := s.offers.tail } := by
  rcases s with ⟨r, f, sp, pc, i, ha, e, m, fa, hi, p, o, inp, d⟩
  cases o with
  | cons o rest => rfl
  | nil =>
    unfold State.takeOffer
    simp only [h]
    rfl

/-- An offer that the list holds is taken as it is. -/
theorem State.takeOffer_cons {s : State} {o : Offer} {rest : List Offer} (h : s.offers = o :: rest) :
    s.takeOffer = (o, { s with offers := rest }) := by
  unfold State.takeOffer
  rw [h]

/-! ### Reading the bytes of an instruction, and marking a fault -/

theorem Keeps.fetch (s : State) : Keeps s s.fetch.2 := by
  unfold State.fetch
  dsimp only
  split
  · exact ((Keeps.load s _).trans (Keeps.load _ _)).trans (Keeps.load _ _)
  · exact (Keeps.load s _).trans (Keeps.load _ _)
  · exact Keeps.load s _

@[simp] theorem State.markFault_faulted (s : State) (f : Fault) : (s.markFault f).faulted = some f := rfl
@[simp] theorem State.markFault_regs (s : State) (f : Fault) : (s.markFault f).regs = s.regs := s.load_regs _
@[simp] theorem State.markFault_flags (s : State) (f : Fault) : (s.markFault f).flags = s.flags := s.load_flags _
@[simp] theorem State.markFault_sp (s : State) (f : Fault) : (s.markFault f).sp = s.sp := s.load_sp _
@[simp] theorem State.markFault_pc (s : State) (f : Fault) : (s.markFault f).pc = s.pc := s.load_pc _
@[simp] theorem State.markFault_inte (s : State) (f : Fault) : (s.markFault f).inte = s.inte := s.load_inte _
@[simp] theorem State.markFault_halted (s : State) (f : Fault) : (s.markFault f).halted = s.halted := s.load_halted _
@[simp] theorem State.markFault_eiPending (s : State) (f : Fault) : (s.markFault f).eiPending = s.eiPending := s.load_eiPending _
@[simp] theorem State.markFault_mem (s : State) (f : Fault) : (s.markFault f).mem = s.mem := s.load_mem _
@[simp] theorem State.markFault_params (s : State) (f : Fault) : (s.markFault f).params = s.params := s.load_params _
@[simp] theorem State.markFault_offers (s : State) (f : Fault) : (s.markFault f).offers = s.offers := s.load_offers _

@[simp] theorem State.markFault_byteAt (s : State) (f : Fault) (a : Word) : (s.markFault f).byteAt a = s.byteAt a := s.load_byteAt _ a

/-! ### Interrupt entry -/

@[simp] theorem entryAddress_eq (p : Config.Params) (n : BitVec 3) : entryAddress p n = restartAddress n := by
  unfold entryAddress
  cases p.intInstr
  rfl

theorem Keeps.acceptInterrupt (s : State) (n : BitVec 3) : Keeps s (s.acceptInterrupt n) :=
  ((Keeps.of_eq (s := s) (t := { s with inte := false, halted := false }) rfl rfl rfl rfl rfl rfl rfl).trans
    (Keeps.push16 _ _)).goto _

/-! ### The cases of a step -/

/-- A boundary that offers nothing, or a request that is not accepted, leads to the transition `(instr)`. -/
theorem step_of_not_accepted {s : State}
    (h : s.takeOffer.1 = .quiet ∨ ∃ n, s.takeOffer.1 = .request n ∧ s.acceptEnabled = false) :
    step s = instrStep s.takeOffer.2 := by
  unfold step
  rcases h with h | ⟨n, h, ha⟩
  · rw [h]
  · rw [h]
    simp [ha]

/-- What the transition `(instr)` can do: answer the mark again, stay halted, or run what the bytes fetched decode to. -/
theorem instrStep_cases (s : State) :
    (∃ f, s.faulted = some f ∧ instrStep s = .fault f) ∨
    (s.faulted = none ∧ s.halted = true ∧ instrStep s = .next s) ∨
    (s.faulted = none ∧ s.halted = false ∧ ∃ i rest, decode s.fetch.1 = .ok (i, rest) ∧ instrStep s = exec i s.fetch.2) ∨
    (s.faulted = none ∧ s.halted = false ∧ (∃ e, decode s.fetch.1 = .error e) ∧ instrStep s = .refused .undecodable) := by
  unfold instrStep
  cases hf : s.faulted with
  | some f => exact .inl ⟨f, rfl, rfl⟩
  | none =>
    cases hh : s.halted with
    | true => exact .inr (.inl ⟨rfl, rfl, rfl⟩)
    | false =>
      cases hd : decode s.fetch.1 with
      | ok r => exact .inr (.inr (.inl ⟨rfl, rfl, r.1, r.2, rfl, rfl⟩))
      | error e => exact .inr (.inr (.inr ⟨rfl, rfl, ⟨e, rfl⟩, rfl⟩))

/-- What a step can do: a reset, an interrupt entry, or the transition `(instr)`. -/
theorem step_cases (s : State) :
    (s.takeOffer.1 = .reset ∧ step s = .next s.takeOffer.2.resetRunning) ∨
    (∃ n, s.takeOffer.1 = .request n ∧ s.acceptEnabled = true ∧ step s = .next (s.takeOffer.2.acceptInterrupt n)) ∨
    ((s.takeOffer.1 = .quiet ∨ ∃ n, s.takeOffer.1 = .request n ∧ s.acceptEnabled = false) ∧
      step s = instrStep s.takeOffer.2) := by
  cases ho : s.takeOffer.1 with
  | reset => exact .inl ⟨rfl, by unfold step; rw [ho]⟩
  | quiet => exact .inr (.inr ⟨.inl rfl, step_of_not_accepted (.inl ho)⟩)
  | request n =>
    cases ha : s.acceptEnabled with
    | true => exact .inr (.inl ⟨n, rfl, rfl, by unfold step; rw [ho]; simp [ha]⟩)
    | false => exact .inr (.inr ⟨.inr ⟨n, rfl, rfl⟩, step_of_not_accepted (.inr ⟨n, ho, ha⟩)⟩)

end Sys2Proof.Machine
end

