-- ==== Sys2Proof/Tests/Slice0.lean ====
section
/-! SUPPORT. The model's own tests. The expected results of `test_…_V<n>` are the vectors V<n> of spec/95_test_vectors.md; the words of
the decode tests are written out from the encodings of spec/30_encoding.md. The `witness_…` theorems show, for each statement with
hypotheses, states and operands that meet them together. -/

namespace Sys2Proof.Tests

open Sys2Proof Sys2Proof.Machine

set_option Elab.async false

/-! ### Helpers -/

/-- Every 8-bit register at 0. -/
def zeros : Regs := { a := 0, b := 0, c := 0, d := 0, e := 0, h := 0, l := 0 }

/-- S, Z, AC, P, CY, in the order of the vectors. -/
def flags (s z ac p cy : Nat) : Flags := { s := s == 1, z := z == 1, ac := ac == 1, p := p == 1, cy := cy == 1 }

/-- The vectors' state before: PC at 0100, SP at 2400, everything else 0. -/
def start : State := { State.reset with pc := 0x0100, sp := 0x2400 }

/-- A state with the bytes `code` at PC and the cells `data` in memory. -/
def placed (code : List Byte) (s : State) (data : List (Nat × Byte)) : State :=
  s.loadImage (code.mapIdx (fun k b => (s.pc.toNat + k, b)) ++ data)

/-- One step from that state answers a next state of which `holds` is true. -/
def after (code : List Byte) (s : State) (data : List (Nat × Byte)) (holds : State → Bool) : Bool :=
  match step (placed code s data) with
  | .next t => holds t
  | .fault _ => false
  | .refused _ => false

/-- The answer is the next state `t`, the fault `f` or the refusal `x`. -/
def answers (r : Result) (t : Option State) (f : Option Fault) (x : Option Refusal) : Bool :=
  match r with
  | .next t' => t == some t'
  | .fault f' => f == some f'
  | .refused x' => x == some x'

theorem eq_next_of_answers {r : Result} {t : State} (h : answers r (some t) none none = true) : r = .next t := by
  cases r <;> simp_all [answers]

theorem eq_fault_of_answers {r : Result} {f : Fault} (h : answers r none (some f) none = true) : r = .fault f := by
  cases r <;> simp_all [answers]

theorem eq_refused_of_answers {r : Result} {x : Refusal} (h : answers r none none (some x) = true) : r = .refused x := by
  cases r <;> simp_all [answers]

/-- One step stops with the fault given. -/
def faultsWith (code : List Byte) (s : State) (f : Fault) : Bool := answers (step (placed code s [])) none (some f) none

/-- A memory map in which the addresses from `first` to `last` are of one kind. -/
def mapped (first last : Word) (kind : Config.MemKind) : Config.Params :=
  { Config.Params.standard with memMap := [{ first := first, last := last, kind := kind }] }

/-- The default parameters with UNDOC_POLICY = alias. -/
def aliasing : Config.Params := { Config.Params.standard with undoc := .alias_ }

/-! ### Well-formedness: each check refuses a term -/

theorem test_wf_ldax_hl : (Instr.ldax .hl).wellFormed = false := by decide
theorem test_wf_ldax_sp : (Instr.ldax .sp).wellFormed = false := by decide
theorem test_wf_stax_hl : (Instr.stax .hl).wellFormed = false := by decide
theorem test_wf_stax_sp : (Instr.stax .sp).wellFormed = false := by decide
theorem test_wf_push_sp : (Instr.pushRp .sp).wellFormed = false := by decide
theorem test_wf_pop_sp : (Instr.popRp .sp).wellFormed = false := by decide
theorem test_wf_push_hl : (Instr.pushRp .hl).wellFormed = true := by decide

/-! ### Decoding -/

theorem test_decode_transfer8 :
    decodeTableWord 8 0b01100001 = some (.movRR .h .c) ∧
    decodeTableWord 8 0b01000110 = some (.movRM .b) ∧
    decodeTableWord 8 0b01110100 = some (.movMR .h) ∧
    decodeTableWord 16 0b01001001_00111110 = some (.mviR .a 0x49) ∧
    decodeTableWord 16 0b01010000_00110110 = some (.mviM 0x50) ∧
    decodeTableWord 24 0b11001001_01010111_00111010 = some (.lda 0xC957) ∧
    decodeTableWord 24 0b11010100_01011110_00110010 = some (.sta 0xD45E) ∧
    decodeTableWord 8 0b00001010 = some (.ldax .bc) ∧
    decodeTableWord 8 0b00010010 = some (.stax .de) := by decide +kernel

theorem test_decode_transfer16 :
    decodeTableWord 24 0b11110101_01110011_00101010 = some (.lhld 0xF573) ∧
    decodeTableWord 24 0b00000000_01111010_00100010 = some (.shld 0x007A) ∧
    decodeTableWord 24 0b00001011_10000001_00000001 = some (.lxi .bc 0x0B81) ∧
    decodeTableWord 8 0b11010101 = some (.pushRp .de) ∧
    decodeTableWord 8 0b11110101 = some .pushPsw ∧
    decodeTableWord 8 0b11000001 = some (.popRp .bc) ∧
    decodeTableWord 8 0b11110001 = some .popPsw ∧
    decodeTableWord 8 0b11100011 = some .xthl ∧
    decodeTableWord 8 0b11111001 = some .sphl ∧
    decodeTableWord 8 0b11101001 = some .pchl ∧
    decodeTableWord 8 0b11101011 = some .xchg := by decide +kernel

theorem test_decode_arith8_register :
    decodeTableWord 8 0b10000011 = some (.addR .e) ∧
    decodeTableWord 8 0b10000110 = some .addM ∧
    decodeTableWord 8 0b10001111 = some (.adcR .a) ∧
    decodeTableWord 8 0b10001110 = some .adcM ∧
    decodeTableWord 8 0b10010010 = some (.subR .d) ∧
    decodeTableWord 8 0b10010110 = some .subM ∧
    decodeTableWord 8 0b10011101 = some (.sbbR .l) ∧
    decodeTableWord 8 0b10011110 = some .sbbM := by decide +kernel

theorem test_decode_logic_register :
    decodeTableWord 8 0b10100001 = some (.anaR .c) ∧
    decodeTableWord 8 0b10100110 = some .anaM ∧
    decodeTableWord 8 0b10101100 = some (.xraR .h) ∧
    decodeTableWord 8 0b10101110 = some .xraM ∧
    decodeTableWord 8 0b10110000 = some (.oraR .b) ∧
    decodeTableWord 8 0b10110110 = some .oraM ∧
    decodeTableWord 8 0b10111011 = some (.cmpR .e) ∧
    decodeTableWord 8 0b10111110 = some .cmpM := by decide +kernel

theorem test_decode_step_and_immediate :
    decodeTableWord 8 0b00000100 = some (.inrR .b) ∧
    decodeTableWord 8 0b00110100 = some .inrM ∧
    decodeTableWord 8 0b00111101 = some (.dcrR .a) ∧
    decodeTableWord 8 0b00110101 = some .dcrM ∧
    decodeTableWord 16 0b01001100_11000110 = some (.adi 0x4C) ∧
    decodeTableWord 16 0b01010011_11001110 = some (.aci 0x53) ∧
    decodeTableWord 16 0b01011010_11010110 = some (.sui 0x5A) ∧
    decodeTableWord 16 0b01100001_11011110 = some (.sbi 0x61) ∧
    decodeTableWord 16 0b01101000_11100110 = some (.ani 0x68) ∧
    decodeTableWord 16 0b01101111_11101110 = some (.xri 0x6F) ∧
    decodeTableWord 16 0b01110110_11110110 = some (.ori 0x76) ∧
    decodeTableWord 16 0b01111101_11111110 = some (.cpi 0x7D) ∧
    decodeTableWord 8 0b00100111 = some .daa := by decide +kernel

theorem test_decode_arith16 :
    decodeTableWord 8 0b00101001 = some (.dad .hl) ∧
    decodeTableWord 8 0b00110011 = some (.inx .sp) ∧
    decodeTableWord 8 0b00001011 = some (.dcx .bc) := by decide +kernel

theorem test_decode_jumps :
    decodeTableWord 24 0b11001110_10100000_11000011 = some (.jmp 0xCEA0) ∧
    decodeTableWord 24 0b11101111_10110101_11000010 = some (.jnz 0xEFB5) ∧
    decodeTableWord 24 0b11111010_10111100_11001010 = some (.jz 0xFABC) ∧
    decodeTableWord 24 0b00000101_11000011_11010010 = some (.jnc 0x05C3) ∧
    decodeTableWord 24 0b00010000_11001010_11011010 = some (.jc 0x10CA) ∧
    decodeTableWord 24 0b00011011_11010001_11100010 = some (.jpo 0x1BD1) ∧
    decodeTableWord 24 0b00100110_11011000_11101010 = some (.jpe 0x26D8) ∧
    decodeTableWord 24 0b00110001_11011111_11110010 = some (.jp 0x31DF) ∧
    decodeTableWord 24 0b00111100_11100110_11111010 = some (.jm 0x3CE6) := by decide +kernel

theorem test_decode_calls :
    decodeTableWord 24 0b11011001_10100111_11001101 = some (.call 0xD9A7) ∧
    decodeTableWord 24 0b01000111_11101101_11000100 = some (.cnz 0x47ED) ∧
    decodeTableWord 24 0b01010010_11110100_11001100 = some (.cz 0x52F4) ∧
    decodeTableWord 24 0b01011101_11111011_11010100 = some (.cnc 0x5DFB) ∧
    decodeTableWord 24 0b01101000_00000010_11011100 = some (.cc 0x6802) ∧
    decodeTableWord 24 0b01110011_00001001_11100100 = some (.cpo 0x7309) ∧
    decodeTableWord 24 0b01111110_00010000_11101100 = some (.cpe 0x7E10) ∧
    decodeTableWord 24 0b10001001_00010111_11110100 = some (.cp 0x8917) ∧
    decodeTableWord 24 0b10010100_00011110_11111100 = some (.cm 0x941E) := by decide +kernel

theorem test_decode_returns :
    decodeTableWord 8 0b11001001 = some .ret ∧
    decodeTableWord 8 0b11000000 = some .rnz ∧
    decodeTableWord 8 0b11001000 = some .rz ∧
    decodeTableWord 8 0b11010000 = some .rnc ∧
    decodeTableWord 8 0b11011000 = some .rc ∧
    decodeTableWord 8 0b11100000 = some .rpo ∧
    decodeTableWord 8 0b11101000 = some .rpe ∧
    decodeTableWord 8 0b11110000 = some .rp ∧
    decodeTableWord 8 0b11111000 = some .rm := by decide +kernel

theorem test_decode_rotates :
    decodeTableWord 8 0b00000111 = some .rlc ∧
    decodeTableWord 8 0b00001111 = some .rrc ∧
    decodeTableWord 8 0b00010111 = some .ral ∧
    decodeTableWord 8 0b00011111 = some .rar := by decide +kernel

theorem test_decode_other :
    decodeTableWord 16 0b01111001_11011011 = some (.inPort 0x79) ∧
    decodeTableWord 16 0b10000000_11010011 = some (.outPort 0x80) ∧
    decodeTableWord 8 0b00110111 = some .stc ∧
    decodeTableWord 8 0b00111111 = some .cmc ∧
    decodeTableWord 8 0b00101111 = some .cma ∧
    decodeTableWord 8 0b00000000 = some .nop ∧
    decodeTableWord 8 0b01110110 = some .hlt ∧
    decodeTableWord 8 0b11110011 = some .di ∧
    decodeTableWord 8 0b11111011 = some .ei ∧
    decodeTableWord 8 0b11101111 = some (.rst 5) := by decide +kernel

theorem test_decode_undefined :
    decodeTableWord 8 0b00001000 = some .undef08 ∧
    decodeTableWord 8 0b00010000 = some .undef10 ∧
    decodeTableWord 8 0b00011000 = some .undef18 ∧
    decodeTableWord 8 0b00100000 = some .undef20 ∧
    decodeTableWord 8 0b00101000 = some .undef28 ∧
    decodeTableWord 8 0b00110000 = some .undef30 ∧
    decodeTableWord 8 0b00111000 = some .undef38 ∧
    decodeTableWord 8 0b11001011 = some (.undefCB 0x0000) ∧
    decodeTableWord 8 0b11011001 = some .undefD9 ∧
    decodeTableWord 8 0b11011101 = some (.undefDD 0x0000) ∧
    decodeTableWord 8 0b11101101 = some (.undefED 0x0000) ∧
    decodeTableWord 8 0b11111101 = some (.undefFD 0x0000) := by decide +kernel

/-! ### One step of each instruction -/

/-- V1: `MOV B,C`. -/
theorem test_movRR_V1 :
    after [0x41] { start with regs := { zeros with b := 0x11, c := 0x22 }, flags := flags 1 0 0 0 1 } []
      (fun t => t.regs == { zeros with b := 0x22, c := 0x22 } && t.flags == flags 1 0 0 0 1 && t.pc == 0x0101 &&
        t.sp == 0x2400) = true := by
  decide +kernel

/-- V5: `MOV H,M`. -/
theorem test_movRM_V5 :
    after [0x66] { start with regs := { zeros with h := 0x20, l := 0x10 } } [(0x2010, 0x30)]
      (fun t => t.regs == { zeros with h := 0x30, l := 0x10 } && t.flags == flags 0 0 0 0 0 && t.pc == 0x0101 &&
        t.sp == 0x2400) = true := by
  decide +kernel

/-- V6: `MOV M,H`. -/
theorem test_movMR_V6 :
    after [0x74] { start with regs := { zeros with h := 0x20, l := 0x10 } } []
      (fun t => t.regs == { zeros with h := 0x20, l := 0x10 } && t.flags == flags 0 0 0 0 0 && t.pc == 0x0101 &&
        t.sp == 0x2400 && t.byteAt 0x2010 == 0x20) = true := by
  decide +kernel

/-- V8: `MVI A,00H`. -/
theorem test_mviR_V8 :
    after [0x3E, 0x00] { start with regs := { zeros with a := 0xFF } } []
      (fun t => t.regs == { zeros with a := 0x00 } && t.flags == flags 0 0 0 0 0 && t.pc == 0x0102 && t.sp == 0x2400) = true := by
  decide +kernel

/-- V9: `MVI M,E5H`. -/
theorem test_mviM_V9 :
    after [0x36, 0xE5] { start with regs := { zeros with h := 0xFF, l := 0xFF } } []
      (fun t => t.regs == { zeros with h := 0xFF, l := 0xFF } && t.flags == flags 0 0 0 0 0 && t.pc == 0x0102 &&
        t.sp == 0x2400 && t.byteAt 0xFFFF == 0xE5) = true := by
  decide +kernel

/-- V10: `LDA 1234H`. -/
theorem test_lda_V10 :
    after [0x3A, 0x34, 0x12] start [(0x1234, 0x99)]
      (fun t => t.regs == { zeros with a := 0x99 } && t.flags == flags 0 0 0 0 0 && t.pc == 0x0103 && t.sp == 0x2400) = true := by
  decide +kernel

/-- V11: `STA FFFFH`. -/
theorem test_sta_V11 :
    after [0x32, 0xFF, 0xFF] { start with regs := { zeros with a := 0x42 } } []
      (fun t => t.regs == { zeros with a := 0x42 } && t.flags == flags 0 0 0 0 0 && t.pc == 0x0103 && t.sp == 0x2400 &&
        t.byteAt 0xFFFF == 0x42) = true := by
  decide +kernel

/-- V12: `LDAX B`. -/
theorem test_ldax_V12 :
    after [0x0A] { start with regs := { zeros with b := 0x12, c := 0x34 } } [(0x1234, 0x77)]
      (fun t => t.regs == { zeros with a := 0x77, b := 0x12, c := 0x34 } && t.flags == flags 0 0 0 0 0 && t.pc == 0x0101 &&
        t.sp == 0x2400) = true := by
  decide +kernel

/-- V13: `LDAX D`. -/
theorem test_ldax_V13 :
    after [0x1A] { start with regs := { zeros with d := 0x00, e := 0x00 } } [(0x0000, 0xC3)]
      (fun t => t.regs == { zeros with a := 0xC3, d := 0x00, e := 0x00 } && t.flags == flags 0 0 0 0 0 && t.pc == 0x0101 &&
        t.sp == 0x2400) = true := by
  decide +kernel

/-- V14: `STAX B`. -/
theorem test_stax_V14 :
    after [0x02] { start with regs := { zeros with a := 0x66, b := 0x30, c := 0x00 } } []
      (fun t => t.regs == { zeros with a := 0x66, b := 0x30, c := 0x00 } && t.flags == flags 0 0 0 0 0 && t.pc == 0x0101 &&
        t.sp == 0x2400 && t.byteAt 0x3000 == 0x66) = true := by
  decide +kernel

/-- V15: `STAX D`. -/
theorem test_stax_V15 :
    after [0x12] { start with regs := { zeros with a := 0x67, d := 0x30, e := 0x01 } } []
      (fun t => t.regs == { zeros with a := 0x67, d := 0x30, e := 0x01 } && t.flags == flags 0 0 0 0 0 && t.pc == 0x0101 &&
        t.sp == 0x2400 && t.byteAt 0x3001 == 0x67) = true := by
  decide +kernel

/-- V20: `LHLD FFFFH`. -/
theorem test_lhld_V20 :
    after [0x2A, 0xFF, 0xFF] start [(0xFFFF, 0x11), (0x0000, 0x22)]
      (fun t => t.regs == { zeros with h := 0x22, l := 0x11 } && t.flags == flags 0 0 0 0 0 && t.pc == 0x0103 &&
        t.sp == 0x2400) = true := by
  decide +kernel

/-- V22: `SHLD FFFFH`. -/
theorem test_shld_V22 :
    after [0x22, 0xFF, 0xFF] { start with regs := { zeros with h := 0xAB, l := 0xCD }, pc := 0x0200 } []
      (fun t => t.regs == { zeros with h := 0xAB, l := 0xCD } && t.flags == flags 0 0 0 0 0 && t.pc == 0x0203 &&
        t.sp == 0x2400 && t.byteAt 0xFFFF == 0xCD && t.byteAt 0x0000 == 0xAB) = true := by
  decide +kernel

/-- V16: `LXI B,1234H`. -/
theorem test_lxi_V16 :
    after [0x01, 0x34, 0x12] start []
      (fun t => t.regs == { zeros with b := 0x12, c := 0x34 } && t.flags == flags 0 0 0 0 0 && t.pc == 0x0103 &&
        t.sp == 0x2400) = true := by
  decide +kernel

/-- V17: `LXI SP,2400H`. -/
theorem test_lxi_V17 :
    after [0x31, 0x00, 0x24] { start with sp := 0xBEEF } []
      (fun t => t.regs == zeros && t.flags == flags 0 0 0 0 0 && t.pc == 0x0103 && t.sp == 0x2400) = true := by
  decide +kernel

/-- V24: `PUSH D`. -/
theorem test_pushRp_V24 :
    after [0xD5] { start with regs := { zeros with d := 0x56, e := 0x78 }, sp := 0x0001 } []
      (fun t => t.regs == { zeros with d := 0x56, e := 0x78 } && t.flags == flags 0 0 0 0 0 && t.pc == 0x0101 &&
        t.sp == 0xFFFF && t.byteAt 0x0000 == 0x56 && t.byteAt 0xFFFF == 0x78) = true := by
  decide +kernel

/-- V25: `PUSH H`. -/
theorem test_pushRp_V25 :
    after [0xE5] { start with regs := { zeros with h := 0x9A, l := 0xBC }, sp := 0x0000 } []
      (fun t => t.regs == { zeros with h := 0x9A, l := 0xBC } && t.flags == flags 0 0 0 0 0 && t.pc == 0x0101 &&
        t.sp == 0xFFFE && t.byteAt 0xFFFF == 0x9A && t.byteAt 0xFFFE == 0xBC) = true := by
  decide +kernel

/-- V26: `PUSH PSW`. -/
theorem test_pushPsw_V26 :
    after [0xF5] { start with regs := { zeros with a := 0x80 }, flags := flags 1 0 0 0 1 } []
      (fun t => t.regs == { zeros with a := 0x80 } && t.flags == flags 1 0 0 0 1 && t.pc == 0x0101 && t.sp == 0x23FE &&
        t.byteAt 0x23FF == 0x80 && t.byteAt 0x23FE == 0x83) = true := by
  decide +kernel

/-- V28: `PUSH PSW`. -/
theorem test_pushPsw_V28 :
    after [0xF5] { start with regs := { zeros with a := 0xFF }, flags := flags 1 1 1 1 1 } []
      (fun t => t.regs == { zeros with a := 0xFF } && t.flags == flags 1 1 1 1 1 && t.pc == 0x0101 && t.sp == 0x23FE &&
        t.byteAt 0x23FF == 0xFF && t.byteAt 0x23FE == 0xD7) = true := by
  decide +kernel

/-- V29: `POP B`. -/
theorem test_popRp_V29 :
    after [0xC1] { start with sp := 0x23FE } [(0x23FE, 0x34), (0x23FF, 0x12)]
      (fun t => t.regs == { zeros with b := 0x12, c := 0x34 } && t.flags == flags 0 0 0 0 0 && t.pc == 0x0101 &&
        t.sp == 0x2400) = true := by
  decide +kernel

/-- V30: `POP H`. -/
theorem test_popRp_V30 :
    after [0xE1] { start with sp := 0xFFFF, pc := 0x0200 } [(0xFFFF, 0xEF), (0x0000, 0xBE)]
      (fun t => t.regs == { zeros with h := 0xBE, l := 0xEF } && t.flags == flags 0 0 0 0 0 && t.pc == 0x0201 &&
        t.sp == 0x0001) = true := by
  decide +kernel

/-- V31: `POP PSW`. -/
theorem test_popPsw_V31 :
    after [0xF1] { start with sp := 0x23FE } [(0x23FE, 0xFF), (0x23FF, 0x12)]
      (fun t => t.regs == { zeros with a := 0x12 } && t.flags == flags 1 1 1 1 1 && t.pc == 0x0101 && t.sp == 0x2400) = true := by
  decide +kernel

/-- V33: `POP PSW`. -/
theorem test_popPsw_V33 :
    after [0xF1] { start with sp := 0x23FE } [(0x23FE, 0x45), (0x23FF, 0x00)]
      (fun t => t.regs == zeros && t.flags == flags 0 1 0 1 1 && t.pc == 0x0101 && t.sp == 0x2400) = true := by
  decide +kernel

/-- V34: `XTHL`. -/
theorem test_xthl_V34 :
    after [0xE3] { start with regs := { zeros with h := 0x12, l := 0x34 }, sp := 0x23FE } [(0x23FE, 0x78), (0x23FF, 0x56)]
      (fun t => t.regs == { zeros with h := 0x56, l := 0x78 } && t.flags == flags 0 0 0 0 0 && t.pc == 0x0101 &&
        t.sp == 0x23FE && t.byteAt 0x23FF == 0x12 && t.byteAt 0x23FE == 0x34) = true := by
  decide +kernel

/-- V35: `SPHL`. -/
theorem test_sphl_V35 :
    after [0xF9] { start with regs := { zeros with h := 0x30, l := 0x00 } } []
      (fun t => t.regs == { zeros with h := 0x30, l := 0x00 } && t.flags == flags 0 0 0 0 0 && t.pc == 0x0101 &&
        t.sp == 0x3000) = true := by
  decide +kernel

/-- V36: `PCHL`. -/
theorem test_pchl_V36 :
    after [0xE9] { start with regs := { zeros with h := 0x12, l := 0x34 } } []
      (fun t => t.regs == { zeros with h := 0x12, l := 0x34 } && t.flags == flags 0 0 0 0 0 && t.pc == 0x1234 &&
        t.sp == 0x2400) = true := by
  decide +kernel

/-- V37: `XCHG`. -/
theorem test_xchg_V37 :
    after [0xEB] { start with regs := { zeros with d := 0x11, e := 0x22, h := 0x33, l := 0x44 } } []
      (fun t => t.regs == { zeros with d := 0x33, e := 0x44, h := 0x11, l := 0x22 } && t.flags == flags 0 0 0 0 0 &&
        t.pc == 0x0101 && t.sp == 0x2400) = true := by
  decide +kernel

/-- V38: `ADD B`. -/
theorem test_addR_V38 :
    after [0x80] { start with regs := { zeros with a := 0x2E, b := 0x6C } } []
      (fun t => t.regs == { zeros with a := 0x9A, b := 0x6C } && t.flags == flags 1 0 1 1 0 && t.pc == 0x0101 &&
        t.sp == 0x2400) = true := by
  decide +kernel

/-- V39: `ADD B`. -/
theorem test_addR_V39 :
    after [0x80] { start with regs := { zeros with a := 0xFF, b := 0x01 } } []
      (fun t => t.regs == { zeros with a := 0x00, b := 0x01 } && t.flags == flags 0 1 1 1 1 && t.pc == 0x0101 &&
        t.sp == 0x2400) = true := by
  decide +kernel

/-- V44: `ADD M`. -/
theorem test_addM_V44 :
    after [0x86] { start with regs := { zeros with a := 0x10, h := 0x20, l := 0x00 } } [(0x2000, 0xF0)]
      (fun t => t.regs == { zeros with a := 0x00, h := 0x20, l := 0x00 } && t.flags == flags 0 1 0 1 1 && t.pc == 0x0101 &&
        t.sp == 0x2400) = true := by
  decide +kernel

/-- V45: `ADC B`. -/
theorem test_adcR_V45 :
    after [0x88] { start with regs := { zeros with a := 0x3D, b := 0x42 }, flags := flags 0 0 0 0 1 } []
      (fun t => t.regs == { zeros with a := 0x80, b := 0x42 } && t.flags == flags 1 0 1 0 0 && t.pc == 0x0101 &&
        t.sp == 0x2400) = true := by
  decide +kernel

/-- V46: `ADC C`. -/
theorem test_adcR_V46 :
    after [0x89] { start with regs := { zeros with a := 0xFF, c := 0x00 }, flags := flags 0 0 0 0 1 } []
      (fun t => t.regs == { zeros with a := 0x00, c := 0x00 } && t.flags == flags 0 1 1 1 1 && t.pc == 0x0101 &&
        t.sp == 0x2400) = true := by
  decide +kernel

/-- V47: `ADC M`. -/
theorem test_adcM_V47 :
    after [0x8E] { start with regs := { zeros with a := 0x0F, h := 0x20, l := 0x00 }, flags := flags 0 0 0 0 1 } [(0x2000, 0x00)]
      (fun t => t.regs == { zeros with a := 0x10, h := 0x20, l := 0x00 } && t.flags == flags 0 0 1 0 0 && t.pc == 0x0101 &&
        t.sp == 0x2400) = true := by
  decide +kernel

/-- V49: `SUB B`. -/
theorem test_subR_V49 :
    after [0x90] { start with regs := { zeros with a := 0x00, b := 0x01 } } []
      (fun t => t.regs == { zeros with a := 0xFF, b := 0x01 } && t.flags == flags 1 0 0 1 1 && t.pc == 0x0101 &&
        t.sp == 0x2400) = true := by
  decide +kernel

/-- V50: `SUB D`. -/
theorem test_subR_V50 :
    after [0x92] { start with regs := { zeros with a := 0x10, d := 0x01 } } []
      (fun t => t.regs == { zeros with a := 0x0F, d := 0x01 } && t.flags == flags 0 0 0 1 0 && t.pc == 0x0101 &&
        t.sp == 0x2400) = true := by
  decide +kernel

/-- V52: `SUB M`. -/
theorem test_subM_V52 :
    after [0x96] { start with regs := { zeros with a := 0x80, h := 0x20, l := 0x00 } } [(0x2000, 0x01)]
      (fun t => t.regs == { zeros with a := 0x7F, h := 0x20, l := 0x00 } && t.flags == flags 0 0 0 0 0 && t.pc == 0x0101 &&
        t.sp == 0x2400) = true := by
  decide +kernel

/-- V53: `SBB B`. -/
theorem test_sbbR_V53 :
    after [0x98] { start with regs := { zeros with a := 0x04, b := 0x02 }, flags := flags 0 0 0 0 1 } []
      (fun t => t.regs == { zeros with a := 0x01, b := 0x02 } && t.flags == flags 0 0 1 0 0 && t.pc == 0x0101 &&
        t.sp == 0x2400) = true := by
  decide +kernel

/-- V54: `SBB C`. -/
theorem test_sbbR_V54 :
    after [0x99] { start with regs := { zeros with a := 0x00, c := 0xFF }, flags := flags 0 0 0 0 1 } []
      (fun t => t.regs == { zeros with a := 0x00, c := 0xFF } && t.flags == flags 0 1 0 1 1 && t.pc == 0x0101 &&
        t.sp == 0x2400) = true := by
  decide +kernel

/-- V55: `SBB M`. -/
theorem test_sbbM_V55 :
    after [0x9E] { start with regs := { zeros with a := 0x00, h := 0x20, l := 0x00 }, flags := flags 0 0 0 0 1 } [(0x2000, 0x00)]
      (fun t => t.regs == { zeros with a := 0xFF, h := 0x20, l := 0x00 } && t.flags == flags 1 0 0 1 1 && t.pc == 0x0101 &&
        t.sp == 0x2400) = true := by
  decide +kernel

/-- V71: `ANA B`. -/
theorem test_anaR_V71 :
    after [0xA0] { start with regs := { zeros with a := 0xFC, b := 0x0F }, flags := flags 0 0 0 0 1 } []
      (fun t => t.regs == { zeros with a := 0x0C, b := 0x0F } && t.flags == flags 0 0 1 1 0 && t.pc == 0x0101 &&
        t.sp == 0x2400) = true := by
  decide +kernel

/-- V72: `ANA B`. -/
theorem test_anaR_V72 :
    after [0xA0] { start with regs := { zeros with a := 0xF0, b := 0x07 }, flags := flags 0 0 1 0 1 } []
      (fun t => t.regs == { zeros with a := 0x00, b := 0x07 } && t.flags == flags 0 1 0 1 0 && t.pc == 0x0101 &&
        t.sp == 0x2400) = true := by
  decide +kernel

/-- V74: `ANA M`. -/
theorem test_anaM_V74 :
    after [0xA6] { start with regs := { zeros with a := 0xFF, h := 0x20, l := 0x00 } } [(0x2000, 0x88)]
      (fun t => t.regs == { zeros with a := 0x88, h := 0x20, l := 0x00 } && t.flags == flags 1 0 1 1 0 && t.pc == 0x0101 &&
        t.sp == 0x2400) = true := by
  decide +kernel

/-- V75: `XRA A`. -/
theorem test_xraR_V75 :
    after [0xAF] { start with regs := { zeros with a := 0x5A }, flags := flags 1 0 1 0 1 } []
      (fun t => t.regs == { zeros with a := 0x00 } && t.flags == flags 0 1 0 1 0 && t.pc == 0x0101 && t.sp == 0x2400) = true := by
  decide +kernel

/-- V76: `XRA B`. -/
theorem test_xraR_V76 :
    after [0xA8] { start with regs := { zeros with a := 0xFF, b := 0x0F } } []
      (fun t => t.regs == { zeros with a := 0xF0, b := 0x0F } && t.flags == flags 1 0 0 1 0 && t.pc == 0x0101 &&
        t.sp == 0x2400) = true := by
  decide +kernel

/-- V77: `XRA M`. -/
theorem test_xraM_V77 :
    after [0xAE] { start with regs := { zeros with a := 0x55, h := 0x20, l := 0x00 } } [(0x2000, 0xAA)]
      (fun t => t.regs == { zeros with a := 0xFF, h := 0x20, l := 0x00 } && t.flags == flags 1 0 0 1 0 && t.pc == 0x0101 &&
        t.sp == 0x2400) = true := by
  decide +kernel

/-- V78: `ORA B`. -/
theorem test_oraR_V78 :
    after [0xB0] { start with regs := { zeros with a := 0x33, b := 0x0F }, flags := flags 0 0 1 0 1 } []
      (fun t => t.regs == { zeros with a := 0x3F, b := 0x0F } && t.flags == flags 0 0 0 1 0 && t.pc == 0x0101 &&
        t.sp == 0x2400) = true := by
  decide +kernel

/-- V79: `ORA A`. -/
theorem test_oraR_V79 :
    after [0xB7] { start with regs := { zeros with a := 0x80 }, flags := flags 0 0 0 0 1 } []
      (fun t => t.regs == { zeros with a := 0x80 } && t.flags == flags 1 0 0 0 0 && t.pc == 0x0101 && t.sp == 0x2400) = true := by
  decide +kernel

/-- V80: `ORA M`. -/
theorem test_oraM_V80 :
    after [0xB6] { start with regs := { zeros with a := 0x00, h := 0x20, l := 0x00 } } [(0x2000, 0x00)]
      (fun t => t.regs == { zeros with a := 0x00, h := 0x20, l := 0x00 } && t.flags == flags 0 1 0 1 0 && t.pc == 0x0101 &&
        t.sp == 0x2400) = true := by
  decide +kernel

/-- V83: `CMP B`. -/
theorem test_cmpR_V83 :
    after [0xB8] { start with regs := { zeros with a := 0x02, b := 0x05 } } []
      (fun t => t.regs == { zeros with a := 0x02, b := 0x05 } && t.flags == flags 1 0 0 0 1 && t.pc == 0x0101 &&
        t.sp == 0x2400) = true := by
  decide +kernel

/-- V84: `CMP B`. -/
theorem test_cmpR_V84 :
    after [0xB8] { start with regs := { zeros with a := 0xE5, b := 0x05 } } []
      (fun t => t.regs == { zeros with a := 0xE5, b := 0x05 } && t.flags == flags 1 0 1 0 0 && t.pc == 0x0101 &&
        t.sp == 0x2400) = true := by
  decide +kernel

/-- V85: `CMP M`. -/
theorem test_cmpM_V85 :
    after [0xBE] { start with regs := { zeros with a := 0x7F, h := 0x20, l := 0x00 } } [(0x2000, 0x80)]
      (fun t => t.regs == { zeros with a := 0x7F, h := 0x20, l := 0x00 } && t.flags == flags 1 0 1 1 1 && t.pc == 0x0101 &&
        t.sp == 0x2400 && t.byteAt 0x2000 == 0x80) = true := by
  decide +kernel

/-- V56: `INR B`. -/
theorem test_inrR_V56 :
    after [0x04] { start with regs := { zeros with b := 0xFF } } []
      (fun t => t.regs == { zeros with b := 0x00 } && t.flags == flags 0 1 1 1 0 && t.pc == 0x0101 && t.sp == 0x2400) = true := by
  decide +kernel

/-- V57: `INR A`. -/
theorem test_inrR_V57 :
    after [0x3C] { start with regs := { zeros with a := 0x7F }, flags := flags 0 0 0 0 1 } []
      (fun t => t.regs == { zeros with a := 0x80 } && t.flags == flags 1 0 1 0 1 && t.pc == 0x0101 && t.sp == 0x2400) = true := by
  decide +kernel

/-- V59: `INR M`. -/
theorem test_inrM_V59 :
    after [0x34] { start with regs := { zeros with h := 0x20, l := 0x00 } } [(0x2000, 0x99)]
      (fun t => t.regs == { zeros with h := 0x20, l := 0x00 } && t.flags == flags 1 0 0 1 0 && t.pc == 0x0101 &&
        t.sp == 0x2400 && t.byteAt 0x2000 == 0x9A) = true := by
  decide +kernel

/-- V60: `DCR B`. -/
theorem test_dcrR_V60 :
    after [0x05] { start with regs := { zeros with b := 0x00 } } []
      (fun t => t.regs == { zeros with b := 0xFF } && t.flags == flags 1 0 0 1 0 && t.pc == 0x0101 && t.sp == 0x2400) = true := by
  decide +kernel

/-- V62: `DCR A`. -/
theorem test_dcrR_V62 :
    after [0x3D] { start with regs := { zeros with a := 0x80 }, flags := flags 0 0 0 0 1 } []
      (fun t => t.regs == { zeros with a := 0x7F } && t.flags == flags 0 0 0 0 1 && t.pc == 0x0101 && t.sp == 0x2400) = true := by
  decide +kernel

/-- V63: `DCR M`. -/
theorem test_dcrM_V63 :
    after [0x35] { start with regs := { zeros with h := 0x20, l := 0x00 } } [(0x2000, 0x10)]
      (fun t => t.regs == { zeros with h := 0x20, l := 0x00 } && t.flags == flags 0 0 0 1 0 && t.pc == 0x0101 &&
        t.sp == 0x2400 && t.byteAt 0x2000 == 0x0F) = true := by
  decide +kernel

/-- V64: `ADI 42H`. -/
theorem test_adi_V64 :
    after [0xC6, 0x42] { start with regs := { zeros with a := 0x14 } } []
      (fun t => t.regs == { zeros with a := 0x56 } && t.flags == flags 0 0 0 1 0 && t.pc == 0x0102 && t.sp == 0x2400) = true := by
  decide +kernel

/-- V65: `ADI 00H`. -/
theorem test_adi_V65 :
    after [0xC6, 0x00] { start with regs := { zeros with a := 0x00 }, flags := flags 0 0 0 0 1 } []
      (fun t => t.regs == { zeros with a := 0x00 } && t.flags == flags 0 1 0 1 0 && t.pc == 0x0102 && t.sp == 0x2400) = true := by
  decide +kernel

/-- V66: `ACI BEH`. -/
theorem test_aci_V66 :
    after [0xCE, 0xBE] { start with regs := { zeros with a := 0x56 }, flags := flags 0 0 0 0 1 } []
      (fun t => t.regs == { zeros with a := 0x15 } && t.flags == flags 0 0 1 0 1 && t.pc == 0x0102 && t.sp == 0x2400) = true := by
  decide +kernel

/-- V67: `SUI 01H`. -/
theorem test_sui_V67 :
    after [0xD6, 0x01] { start with regs := { zeros with a := 0x00 } } []
      (fun t => t.regs == { zeros with a := 0xFF } && t.flags == flags 1 0 0 1 1 && t.pc == 0x0102 && t.sp == 0x2400) = true := by
  decide +kernel

/-- V68: `SUI 0FH`. -/
theorem test_sui_V68 :
    after [0xD6, 0x0F] { start with regs := { zeros with a := 0x1F } } []
      (fun t => t.regs == { zeros with a := 0x10 } && t.flags == flags 0 0 1 0 0 && t.pc == 0x0102 && t.sp == 0x2400) = true := by
  decide +kernel

/-- V69: `SBI 01H`. -/
theorem test_sbi_V69 :
    after [0xDE, 0x01] { start with regs := { zeros with a := 0x00 }, flags := flags 0 0 0 0 1 } []
      (fun t => t.regs == { zeros with a := 0xFE } && t.flags == flags 1 0 0 0 1 && t.pc == 0x0102 && t.sp == 0x2400) = true := by
  decide +kernel

/-- V70: `SBI FFH`. -/
theorem test_sbi_V70 :
    after [0xDE, 0xFF] { start with regs := { zeros with a := 0xFF }, flags := flags 0 0 0 0 1 } []
      (fun t => t.regs == { zeros with a := 0xFF } && t.flags == flags 1 0 0 1 1 && t.pc == 0x0102 && t.sp == 0x2400) = true := by
  decide +kernel

/-- V87: `ANI 0FH`. -/
theorem test_ani_V87 :
    after [0xE6, 0x0F] { start with regs := { zeros with a := 0x3A }, flags := flags 0 0 0 0 1 } []
      (fun t => t.regs == { zeros with a := 0x0A } && t.flags == flags 0 0 1 1 0 && t.pc == 0x0102 && t.sp == 0x2400) = true := by
  decide +kernel

/-- V89: `XRI FFH`. -/
theorem test_xri_V89 :
    after [0xEE, 0xFF] { start with regs := { zeros with a := 0x3B }, flags := flags 0 0 1 0 1 } []
      (fun t => t.regs == { zeros with a := 0xC4 } && t.flags == flags 1 0 0 0 0 && t.pc == 0x0102 && t.sp == 0x2400) = true := by
  decide +kernel

/-- V90: `ORI 80H`. -/
theorem test_ori_V90 :
    after [0xF6, 0x80] { start with regs := { zeros with a := 0x01 }, flags := flags 0 0 0 0 1 } []
      (fun t => t.regs == { zeros with a := 0x81 } && t.flags == flags 1 0 0 1 0 && t.pc == 0x0102 && t.sp == 0x2400) = true := by
  decide +kernel

/-- V91: `CPI 40H`. -/
theorem test_cpi_V91 :
    after [0xFE, 0x40] { start with regs := { zeros with a := 0x4A } } []
      (fun t => t.regs == { zeros with a := 0x4A } && t.flags == flags 0 0 1 1 0 && t.pc == 0x0102 && t.sp == 0x2400) = true := by
  decide +kernel

/-- V92: `CPI 4BH`. -/
theorem test_cpi_V92 :
    after [0xFE, 0x4B] { start with regs := { zeros with a := 0x4A } } []
      (fun t => t.regs == { zeros with a := 0x4A } && t.flags == flags 1 0 0 1 1 && t.pc == 0x0102 && t.sp == 0x2400) = true := by
  decide +kernel

/-- V94: `DAA`. -/
theorem test_daa_V94 :
    after [0x27] { start with regs := { zeros with a := 0x9B } } []
      (fun t => t.regs == { zeros with a := 0x01 } && t.flags == flags 0 0 1 0 1 && t.pc == 0x0101 && t.sp == 0x2400) = true := by
  decide +kernel

/-- V101: `DAA`. -/
theorem test_daa_V101 :
    after [0x27] { start with regs := { zeros with a := 0xFF }, flags := flags 0 0 1 0 1 } []
      (fun t => t.regs == { zeros with a := 0x65 } && t.flags == flags 0 0 1 1 1 && t.pc == 0x0101 && t.sp == 0x2400) = true := by
  decide +kernel

/-- V103: `DAD B`. -/
theorem test_dad_V103 :
    after [0x09] { start with regs := { zeros with b := 0x33, c := 0x9F, h := 0xA1, l := 0x7B }, flags := flags 1 1 0 0 0 } []
      (fun t => t.regs == { zeros with b := 0x33, c := 0x9F, h := 0xD5, l := 0x1A } && t.flags == flags 1 1 0 0 0 &&
        t.pc == 0x0101 && t.sp == 0x2400) = true := by
  decide +kernel

/-- V104: `DAD B`. -/
theorem test_dad_V104 :
    after [0x09] { start with regs := { zeros with b := 0x00, c := 0x01, h := 0xFF, l := 0xFF } } []
      (fun t => t.regs == { zeros with b := 0x00, c := 0x01, h := 0x00, l := 0x00 } && t.flags == flags 0 0 0 0 1 &&
        t.pc == 0x0101 && t.sp == 0x2400) = true := by
  decide +kernel

/-- V108: `INX B`. -/
theorem test_inx_V108 :
    after [0x03] { start with regs := { zeros with b := 0xFF, c := 0xFF } } []
      (fun t => t.regs == { zeros with b := 0x00, c := 0x00 } && t.flags == flags 0 0 0 0 0 && t.pc == 0x0101 &&
        t.sp == 0x2400) = true := by
  decide +kernel

/-- V111: `INX SP`. -/
theorem test_inx_V111 :
    after [0x33] { start with sp := 0xFFFF } []
      (fun t => t.regs == zeros && t.flags == flags 0 0 0 0 0 && t.pc == 0x0101 && t.sp == 0x0000) = true := by
  decide +kernel

/-- V112: `DCX B`. -/
theorem test_dcx_V112 :
    after [0x0B] { start with regs := { zeros with b := 0x00, c := 0x00 } } []
      (fun t => t.regs == { zeros with b := 0xFF, c := 0xFF } && t.flags == flags 0 0 0 0 0 && t.pc == 0x0101 &&
        t.sp == 0x2400) = true := by
  decide +kernel

/-- V113: `DCX D`. -/
theorem test_dcx_V113 :
    after [0x1B] { start with regs := { zeros with d := 0x00, e := 0x01 } } []
      (fun t => t.regs == { zeros with d := 0x00, e := 0x00 } && t.flags == flags 0 0 0 0 0 && t.pc == 0x0101 &&
        t.sp == 0x2400) = true := by
  decide +kernel

/-- V116: `JMP 2000H`. -/
theorem test_jmp_V116 :
    after [0xC3, 0x00, 0x20] start []
      (fun t => t.regs == zeros && t.flags == flags 0 0 0 0 0 && t.pc == 0x2000 && t.sp == 0x2400) = true := by
  decide +kernel

/-- V135: `CALL 2000H`. -/
theorem test_call_V135 :
    after [0xCD, 0x00, 0x20] { start with sp := 0x0001 } []
      (fun t => t.regs == zeros && t.flags == flags 0 0 0 0 0 && t.pc == 0x2000 && t.sp == 0xFFFF && t.byteAt 0x0000 == 0x01 &&
        t.byteAt 0xFFFF == 0x03) = true := by
  decide +kernel

/-- V136: `CALL 1234H`. -/
theorem test_call_V136 :
    after [0xCD, 0x34, 0x12] { start with pc := 0xFFFD } []
      (fun t => t.regs == zeros && t.flags == flags 0 0 0 0 0 && t.pc == 0x1234 && t.sp == 0x23FE && t.byteAt 0x23FF == 0x00 &&
        t.byteAt 0x23FE == 0x00) = true := by
  decide +kernel

/-- V137: `RET`. -/
theorem test_ret_V137 :
    after [0xC9] { start with sp := 0x23FE, pc := 0x2000 } [(0x23FE, 0x03), (0x23FF, 0x01)]
      (fun t => t.regs == zeros && t.flags == flags 0 0 0 0 0 && t.pc == 0x0103 && t.sp == 0x2400) = true := by
  decide +kernel

/-- V157: `RET`. -/
theorem test_ret_V157 :
    after [0xC9] { start with sp := 0xFFFF, pc := 0x2000 } [(0xFFFF, 0x34), (0x0000, 0x12)]
      (fun t => t.regs == zeros && t.flags == flags 0 0 0 0 0 && t.pc == 0x1234 && t.sp == 0x0001) = true := by
  decide +kernel

/-- V118: `JNZ 2000H`. -/
theorem test_jnz_V118 :
    after [0xC2, 0x00, 0x20] start []
      (fun t => t.regs == zeros && t.flags == flags 0 0 0 0 0 && t.pc == 0x2000 && t.sp == 0x2400) = true := by
  decide +kernel

/-- V119: `JNZ 2000H`. -/
theorem test_jnz_V119 :
    after [0xC2, 0x00, 0x20] { start with flags := flags 0 1 0 0 0 } []
      (fun t => t.regs == zeros && t.flags == flags 0 1 0 0 0 && t.pc == 0x0103 && t.sp == 0x2400) = true := by
  decide +kernel

/-- V120: `JZ 2000H`. -/
theorem test_jz_V120 :
    after [0xCA, 0x00, 0x20] { start with flags := flags 0 1 0 0 0 } []
      (fun t => t.regs == zeros && t.flags == flags 0 1 0 0 0 && t.pc == 0x2000 && t.sp == 0x2400) = true := by
  decide +kernel

/-- V121: `JZ 2000H`. -/
theorem test_jz_V121 :
    after [0xCA, 0x00, 0x20] start []
      (fun t => t.regs == zeros && t.flags == flags 0 0 0 0 0 && t.pc == 0x0103 && t.sp == 0x2400) = true := by
  decide +kernel

/-- V122: `JNC 2000H`. -/
theorem test_jnc_V122 :
    after [0xD2, 0x00, 0x20] start []
      (fun t => t.regs == zeros && t.flags == flags 0 0 0 0 0 && t.pc == 0x2000 && t.sp == 0x2400) = true := by
  decide +kernel

/-- V123: `JNC 2000H`. -/
theorem test_jnc_V123 :
    after [0xD2, 0x00, 0x20] { start with flags := flags 0 0 0 0 1 } []
      (fun t => t.regs == zeros && t.flags == flags 0 0 0 0 1 && t.pc == 0x0103 && t.sp == 0x2400) = true := by
  decide +kernel

/-- V124: `JC 2000H`. -/
theorem test_jc_V124 :
    after [0xDA, 0x00, 0x20] { start with flags := flags 0 0 0 0 1 } []
      (fun t => t.regs == zeros && t.flags == flags 0 0 0 0 1 && t.pc == 0x2000 && t.sp == 0x2400) = true := by
  decide +kernel

/-- V125: `JC 2000H`. -/
theorem test_jc_V125 :
    after [0xDA, 0x00, 0x20] start []
      (fun t => t.regs == zeros && t.flags == flags 0 0 0 0 0 && t.pc == 0x0103 && t.sp == 0x2400) = true := by
  decide +kernel

/-- V126: `JPO 2000H`. -/
theorem test_jpo_V126 :
    after [0xE2, 0x00, 0x20] start []
      (fun t => t.regs == zeros && t.flags == flags 0 0 0 0 0 && t.pc == 0x2000 && t.sp == 0x2400) = true := by
  decide +kernel

/-- V127: `JPO 2000H`. -/
theorem test_jpo_V127 :
    after [0xE2, 0x00, 0x20] { start with flags := flags 0 0 0 1 0 } []
      (fun t => t.regs == zeros && t.flags == flags 0 0 0 1 0 && t.pc == 0x0103 && t.sp == 0x2400) = true := by
  decide +kernel

/-- V128: `JPE 2000H`. -/
theorem test_jpe_V128 :
    after [0xEA, 0x00, 0x20] { start with flags := flags 0 0 0 1 0 } []
      (fun t => t.regs == zeros && t.flags == flags 0 0 0 1 0 && t.pc == 0x2000 && t.sp == 0x2400) = true := by
  decide +kernel

/-- V129: `JPE 2000H`. -/
theorem test_jpe_V129 :
    after [0xEA, 0x00, 0x20] start []
      (fun t => t.regs == zeros && t.flags == flags 0 0 0 0 0 && t.pc == 0x0103 && t.sp == 0x2400) = true := by
  decide +kernel

/-- V130: `JP 2000H`. -/
theorem test_jp_V130 :
    after [0xF2, 0x00, 0x20] start []
      (fun t => t.regs == zeros && t.flags == flags 0 0 0 0 0 && t.pc == 0x2000 && t.sp == 0x2400) = true := by
  decide +kernel

/-- V131: `JP 2000H`. -/
theorem test_jp_V131 :
    after [0xF2, 0x00, 0x20] { start with flags := flags 1 0 0 0 0 } []
      (fun t => t.regs == zeros && t.flags == flags 1 0 0 0 0 && t.pc == 0x0103 && t.sp == 0x2400) = true := by
  decide +kernel

/-- V132: `JM 2000H`. -/
theorem test_jm_V132 :
    after [0xFA, 0x00, 0x20] { start with flags := flags 1 0 0 0 0 } []
      (fun t => t.regs == zeros && t.flags == flags 1 0 0 0 0 && t.pc == 0x2000 && t.sp == 0x2400) = true := by
  decide +kernel

/-- V133: `JM 2000H`. -/
theorem test_jm_V133 :
    after [0xFA, 0x00, 0x20] start []
      (fun t => t.regs == zeros && t.flags == flags 0 0 0 0 0 && t.pc == 0x0103 && t.sp == 0x2400) = true := by
  decide +kernel

/-- V138: `CNZ 2000H`. -/
theorem test_cnz_V138 :
    after [0xC4, 0x00, 0x20] start []
      (fun t => t.regs == zeros && t.flags == flags 0 0 0 0 0 && t.pc == 0x2000 && t.sp == 0x23FE && t.byteAt 0x23FF == 0x01 &&
        t.byteAt 0x23FE == 0x03) = true := by
  decide +kernel

/-- V139: `CNZ 2000H`. -/
theorem test_cnz_V139 :
    after [0xC4, 0x00, 0x20] { start with flags := flags 0 1 0 0 0 } []
      (fun t => t.regs == zeros && t.flags == flags 0 1 0 0 0 && t.pc == 0x0103 && t.sp == 0x2400) = true := by
  decide +kernel

/-- V140: `CZ 2000H`. -/
theorem test_cz_V140 :
    after [0xCC, 0x00, 0x20] { start with flags := flags 0 1 0 0 0 } []
      (fun t => t.regs == zeros && t.flags == flags 0 1 0 0 0 && t.pc == 0x2000 && t.sp == 0x23FE && t.byteAt 0x23FF == 0x01 &&
        t.byteAt 0x23FE == 0x03) = true := by
  decide +kernel

/-- V141: `CNC 2000H`. -/
theorem test_cnc_V141 :
    after [0xD4, 0x00, 0x20] { start with flags := flags 0 0 0 0 1 } []
      (fun t => t.regs == zeros && t.flags == flags 0 0 0 0 1 && t.pc == 0x0103 && t.sp == 0x2400) = true := by
  decide +kernel

/-- V142: `CC 2000H`. -/
theorem test_cc_V142 :
    after [0xDC, 0x00, 0x20] { start with flags := flags 0 0 0 0 1 } []
      (fun t => t.regs == zeros && t.flags == flags 0 0 0 0 1 && t.pc == 0x2000 && t.sp == 0x23FE && t.byteAt 0x23FF == 0x01 &&
        t.byteAt 0x23FE == 0x03) = true := by
  decide +kernel

/-- V143: `CPO 2000H`. -/
theorem test_cpo_V143 :
    after [0xE4, 0x00, 0x20] start []
      (fun t => t.regs == zeros && t.flags == flags 0 0 0 0 0 && t.pc == 0x2000 && t.sp == 0x23FE && t.byteAt 0x23FF == 0x01 &&
        t.byteAt 0x23FE == 0x03) = true := by
  decide +kernel

/-- V144: `CPE 2000H`. -/
theorem test_cpe_V144 :
    after [0xEC, 0x00, 0x20] start []
      (fun t => t.regs == zeros && t.flags == flags 0 0 0 0 0 && t.pc == 0x0103 && t.sp == 0x2400) = true := by
  decide +kernel

/-- V145: `CP 2000H`. -/
theorem test_cp_V145 :
    after [0xF4, 0x00, 0x20] start []
      (fun t => t.regs == zeros && t.flags == flags 0 0 0 0 0 && t.pc == 0x2000 && t.sp == 0x23FE && t.byteAt 0x23FF == 0x01 &&
        t.byteAt 0x23FE == 0x03) = true := by
  decide +kernel

/-- V146: `CP 2000H`. -/
theorem test_cp_V146 :
    after [0xF4, 0x00, 0x20] { start with flags := flags 1 0 0 0 0 } []
      (fun t => t.regs == zeros && t.flags == flags 1 0 0 0 0 && t.pc == 0x0103 && t.sp == 0x2400) = true := by
  decide +kernel

/-- V147: `CM 2000H`. -/
theorem test_cm_V147 :
    after [0xFC, 0x00, 0x20] { start with flags := flags 1 0 0 0 0 } []
      (fun t => t.regs == zeros && t.flags == flags 1 0 0 0 0 && t.pc == 0x2000 && t.sp == 0x23FE && t.byteAt 0x23FF == 0x01 &&
        t.byteAt 0x23FE == 0x03) = true := by
  decide +kernel

/-- V148: `RNZ`. -/
theorem test_rnz_V148 :
    after [0xC0] { start with sp := 0x23FE, pc := 0x2000 } [(0x23FE, 0x03), (0x23FF, 0x01)]
      (fun t => t.regs == zeros && t.flags == flags 0 0 0 0 0 && t.pc == 0x0103 && t.sp == 0x2400) = true := by
  decide +kernel

/-- V149: `RNZ`. -/
theorem test_rnz_V149 :
    after [0xC0] { start with flags := flags 0 1 0 0 0, sp := 0x23FE, pc := 0x2000 } [(0x23FE, 0x03), (0x23FF, 0x01)]
      (fun t => t.regs == zeros && t.flags == flags 0 1 0 0 0 && t.pc == 0x2001 && t.sp == 0x23FE) = true := by
  decide +kernel

/-- V150: `RZ`. -/
theorem test_rz_V150 :
    after [0xC8] { start with flags := flags 0 1 0 0 0, sp := 0x23FE, pc := 0x2000 } [(0x23FE, 0x03), (0x23FF, 0x01)]
      (fun t => t.regs == zeros && t.flags == flags 0 1 0 0 0 && t.pc == 0x0103 && t.sp == 0x2400) = true := by
  decide +kernel

/-- V151: `RNC`. -/
theorem test_rnc_V151 :
    after [0xD0] { start with sp := 0x23FE, pc := 0x2000 } [(0x23FE, 0x03), (0x23FF, 0x01)]
      (fun t => t.regs == zeros && t.flags == flags 0 0 0 0 0 && t.pc == 0x0103 && t.sp == 0x2400) = true := by
  decide +kernel

/-- V152: `RC`. -/
theorem test_rc_V152 :
    after [0xD8] { start with sp := 0x23FE, pc := 0x2000 } [(0x23FE, 0x03), (0x23FF, 0x01)]
      (fun t => t.regs == zeros && t.flags == flags 0 0 0 0 0 && t.pc == 0x2001 && t.sp == 0x23FE) = true := by
  decide +kernel

/-- V153: `RPO`. -/
theorem test_rpo_V153 :
    after [0xE0] { start with sp := 0x23FE, pc := 0x2000 } [(0x23FE, 0x03), (0x23FF, 0x01)]
      (fun t => t.regs == zeros && t.flags == flags 0 0 0 0 0 && t.pc == 0x0103 && t.sp == 0x2400) = true := by
  decide +kernel

/-- V154: `RPE`. -/
theorem test_rpe_V154 :
    after [0xE8] { start with flags := flags 0 0 0 1 0, sp := 0x23FE, pc := 0x2000 } [(0x23FE, 0x03), (0x23FF, 0x01)]
      (fun t => t.regs == zeros && t.flags == flags 0 0 0 1 0 && t.pc == 0x0103 && t.sp == 0x2400) = true := by
  decide +kernel

/-- V155: `RP`. -/
theorem test_rp_V155 :
    after [0xF0] { start with flags := flags 1 0 0 0 0, sp := 0x23FE, pc := 0x2000 } [(0x23FE, 0x03), (0x23FF, 0x01)]
      (fun t => t.regs == zeros && t.flags == flags 1 0 0 0 0 && t.pc == 0x2001 && t.sp == 0x23FE) = true := by
  decide +kernel

/-- V156: `RM`. -/
theorem test_rm_V156 :
    after [0xF8] { start with flags := flags 1 0 0 0 0, sp := 0x23FE, pc := 0x2000 } [(0x23FE, 0x03), (0x23FF, 0x01)]
      (fun t => t.regs == zeros && t.flags == flags 1 0 0 0 0 && t.pc == 0x0103 && t.sp == 0x2400) = true := by
  decide +kernel

/-- V158: `RLC`. -/
theorem test_rlc_V158 :
    after [0x07] { start with regs := { zeros with a := 0x80 } } []
      (fun t => t.regs == { zeros with a := 0x01 } && t.flags == flags 0 0 0 0 1 && t.pc == 0x0101 && t.sp == 0x2400) = true := by
  decide +kernel

/-- V159: `RLC`. -/
theorem test_rlc_V159 :
    after [0x07] { start with regs := { zeros with a := 0x72 }, flags := flags 0 0 0 0 1 } []
      (fun t => t.regs == { zeros with a := 0xE4 } && t.flags == flags 0 0 0 0 0 && t.pc == 0x0101 && t.sp == 0x2400) = true := by
  decide +kernel

/-- V160: `RRC`. -/
theorem test_rrc_V160 :
    after [0x0F] { start with regs := { zeros with a := 0x01 } } []
      (fun t => t.regs == { zeros with a := 0x80 } && t.flags == flags 0 0 0 0 1 && t.pc == 0x0101 && t.sp == 0x2400) = true := by
  decide +kernel

/-- V161: `RRC`. -/
theorem test_rrc_V161 :
    after [0x0F] { start with regs := { zeros with a := 0xF2 }, flags := flags 0 0 0 0 1 } []
      (fun t => t.regs == { zeros with a := 0x79 } && t.flags == flags 0 0 0 0 0 && t.pc == 0x0101 && t.sp == 0x2400) = true := by
  decide +kernel

/-- V162: `RAL`. -/
theorem test_ral_V162 :
    after [0x17] { start with regs := { zeros with a := 0x80 } } []
      (fun t => t.regs == { zeros with a := 0x00 } && t.flags == flags 0 0 0 0 1 && t.pc == 0x0101 && t.sp == 0x2400) = true := by
  decide +kernel

/-- V163: `RAL`. -/
theorem test_ral_V163 :
    after [0x17] { start with regs := { zeros with a := 0x35 }, flags := flags 0 0 0 0 1 } []
      (fun t => t.regs == { zeros with a := 0x6B } && t.flags == flags 0 0 0 0 0 && t.pc == 0x0101 && t.sp == 0x2400) = true := by
  decide +kernel

/-- V164: `RAR`. -/
theorem test_rar_V164 :
    after [0x1F] { start with regs := { zeros with a := 0x01 } } []
      (fun t => t.regs == { zeros with a := 0x00 } && t.flags == flags 0 0 0 0 1 && t.pc == 0x0101 && t.sp == 0x2400) = true := by
  decide +kernel

/-- V165: `RAR`. -/
theorem test_rar_V165 :
    after [0x1F] { start with regs := { zeros with a := 0x80 }, flags := flags 0 0 0 0 1 } []
      (fun t => t.regs == { zeros with a := 0xC0 } && t.flags == flags 0 0 0 0 0 && t.pc == 0x0101 && t.sp == 0x2400) = true := by
  decide +kernel

/-- V168: `IN 10H`. -/
theorem test_inPort_V168 :
    after [0xDB, 0x10] { start with regs := { zeros with a := 0xFF }, inputs := [0x5A] } []
      (fun t => t.regs == { zeros with a := 0x5A } && t.flags == flags 0 0 0 0 0 && t.pc == 0x0102 && t.sp == 0x2400 &&
        t.history == [.inp 0x10 0x5A]) = true := by
  decide +kernel

/-- V169: `OUT 10H`. -/
theorem test_outPort_V169 :
    after [0xD3, 0x10] { start with regs := { zeros with a := 0xA5 } } []
      (fun t => t.regs == { zeros with a := 0xA5 } && t.flags == flags 0 0 0 0 0 && t.pc == 0x0102 && t.sp == 0x2400 &&
        t.history == [.out 0x10 0xA5]) = true := by
  decide +kernel

/-- V171: `STC`. -/
theorem test_stc_V171 :
    after [0x37] start []
      (fun t => t.regs == zeros && t.flags == flags 0 0 0 0 1 && t.pc == 0x0101 && t.sp == 0x2400) = true := by
  decide +kernel

/-- V173: `CMC`. -/
theorem test_cmc_V173 :
    after [0x3F] start []
      (fun t => t.regs == zeros && t.flags == flags 0 0 0 0 1 && t.pc == 0x0101 && t.sp == 0x2400) = true := by
  decide +kernel

/-- V174: `CMC`. -/
theorem test_cmc_V174 :
    after [0x3F] { start with flags := flags 1 1 0 0 1 } []
      (fun t => t.regs == zeros && t.flags == flags 1 1 0 0 0 && t.pc == 0x0101 && t.sp == 0x2400) = true := by
  decide +kernel

/-- V176: `CMA`. -/
theorem test_cma_V176 :
    after [0x2F] { start with regs := { zeros with a := 0xFF } } []
      (fun t => t.regs == { zeros with a := 0x00 } && t.flags == flags 0 0 0 0 0 && t.pc == 0x0101 && t.sp == 0x2400) = true := by
  decide +kernel

/-- V182: `NOP`. -/
theorem test_nop_V182 :
    after [0x00] { start with inte := true, eiPending := true } []
      (fun t => t.regs == zeros && t.flags == flags 0 0 0 0 0 && t.pc == 0x0101 && t.sp == 0x2400 && !t.eiPending) = true := by
  decide +kernel

/-- V178: `HLT`. -/
theorem test_hlt_V178 :
    after [0x76] start []
      (fun t => t.regs == zeros && t.flags == flags 0 0 0 0 0 && t.pc == 0x0101 && t.sp == 0x2400 && t.halted) = true := by
  decide +kernel

/-- V180: `DI`. -/
theorem test_di_V180 :
    after [0xF3] { start with inte := true, offers := [.quiet] } []
      (fun t => t.regs == zeros && t.flags == flags 0 0 0 0 0 && t.pc == 0x0101 && t.sp == 0x2400 && !t.inte) = true := by
  decide +kernel

/-- V181: `EI`. -/
theorem test_ei_V181 :
    after [0xFB] start []
      (fun t => t.regs == zeros && t.flags == flags 0 0 0 0 0 && t.pc == 0x0101 && t.sp == 0x2400 && t.inte &&
        t.eiPending) = true := by
  decide +kernel

/-- V185: `RST 7`. -/
theorem test_rst_V185 :
    after [0xFF] { start with sp := 0x0000 } []
      (fun t => t.regs == zeros && t.flags == flags 0 0 0 0 0 && t.pc == 0x0038 && t.sp == 0xFFFE && t.byteAt 0xFFFF == 0x01 &&
        t.byteAt 0xFFFE == 0x01) = true := by
  decide +kernel

/-- V186: `RST 5`. -/
theorem test_rst_V186 :
    after [0xEF] { start with pc := 0xFFFF } []
      (fun t => t.regs == zeros && t.flags == flags 0 0 0 0 0 && t.pc == 0x0028 && t.sp == 0x23FE && t.byteAt 0x23FF == 0x00 &&
        t.byteAt 0x23FE == 0x00) = true := by
  decide +kernel
/-- V206: the byte 76 is HLT; the memory HL points to is neither read nor written. -/
theorem test_hlt_V206 :
    after [0x76] { start with regs := { zeros with h := 0x20 }, params := mapped 0x2000 0x2000 .device } []
      (fun t => t.halted && t.pc == 0x0101 && t.history == []) = true := by
  decide +kernel

/-- AC_AND_POLICY = zero (43_logic_cmp_daa.md R170). -/
theorem test_anaR_policy_zero :
    after [0xA0]
      { start with regs := { zeros with a := 0xFC, b := 0x0F }, params := { Config.Params.standard with acAnd := .zero } } []
      (fun t => t.regs.a == 0x0C && t.flags == flags 0 0 0 1 0) = true := by
  decide +kernel

/-! ### The undefined first bytes -/

/-- V193 to V204: under UNDOC_POLICY = fault each of the twelve stops with its byte and address. -/
theorem test_undefined_V193_to_V204 :
    ([0x08, 0x10, 0x18, 0x20, 0x28, 0x30, 0x38, 0xCB, 0xD9, 0xDD, 0xED, 0xFD] : List Byte).all
      (fun op => faultsWith [op] start (.undefinedOpcode op 0x0100)) = true := by
  decide +kernel

/-- The alias table of 30_encoding.md R97: 38 is NOP. -/
theorem test_undef38_alias : after [0x38] { start with params := aliasing } [] (fun t => t.pc == 0x0101) = true := by
  decide +kernel

/-- The same: CB is JMP. -/
theorem test_undefCB_alias :
    after [0xCB, 0x34, 0x12] { start with params := aliasing } [] (fun t => t.pc == 0x1234 && t.sp == 0x2400) = true := by
  decide +kernel

/-- The same: D9 is RET. -/
theorem test_undefD9_alias :
    after [0xD9] { start with params := aliasing, sp := 0x23FE } [(0x23FE, 0x03), (0x23FF, 0x01)]
      (fun t => t.pc == 0x0103 && t.sp == 0x2400) = true := by
  decide +kernel

/-- The same: DD, ED and FD are CALL. -/
theorem test_undefDD_ED_FD_alias :
    ([0xDD, 0xED, 0xFD] : List Byte).all (fun op =>
      after [op, 0x00, 0x20] { start with params := aliasing } []
        (fun t => t.pc == 0x2000 && t.sp == 0x23FE && t.byteAt 0x23FF == 0x01 && t.byteAt 0x23FE == 0x03)) = true := by
  decide +kernel

/-! ### Interrupts, halt and reset -/

/-- V187: the address pushed is PC itself. -/
theorem test_interrupt_V187 :
    after [] { start with pc := 0x0105, inte := true, offers := [.request 2] } []
      (fun t => t.pc == 0x0010 && t.sp == 0x23FE && !t.inte && t.byteAt 0x23FF == 0x01 && t.byteAt 0x23FE == 0x05) = true := by
  decide +kernel

/-- V188: the halt ends. -/
theorem test_interrupt_V188 :
    after [] { start with pc := 0x0201, inte := true, halted := true, offers := [.request 7] } []
      (fun t => t.pc == 0x0038 && !t.halted && t.byteAt 0x23FF == 0x02 && t.byteAt 0x23FE == 0x01) = true := by
  decide +kernel

/-- V189: the push wraps. -/
theorem test_interrupt_V189 :
    after [] { start with pc := 0xFFFF, sp := 0x0001, inte := true, offers := [.request 0] } []
      (fun t => t.pc == 0x0000 && t.sp == 0xFFFF && t.byteAt 0x0000 == 0xFF && t.byteAt 0xFFFF == 0xFF) = true := by
  decide +kernel

/-- V190: with INTE clear the next instruction (here NOP) runs. -/
theorem test_interrupt_V190 :
    after [0x00] { start with pc := 0x0105, offers := [.request 3] } [] (fun t => t.pc == 0x0106 && t.sp == 0x2400) = true := by
  decide +kernel

/-- V191: right after EI the instruction runs first. -/
theorem test_interrupt_V191 :
    after [0x00] { start with pc := 0x0106, inte := true, eiPending := true, offers := [.request 3] } []
      (fun t => t.pc == 0x0107 && t.acceptEnabled) = true := by
  decide +kernel

/-- V192: halted with INTE clear, nothing happens. -/
theorem test_interrupt_V192 :
    after [] { start with halted := true, offers := [.request 3] } [] (fun t => t.halted && t.pc == 0x0100 && t.final) = true := by
  decide +kernel

/-- V205: reset ends a halt and a fault. -/
theorem test_reset_V205 :
    after [] { start with halted := true, faulted := some (.undefinedOpcode 0x08 0x0100), offers := [.reset] } [(0x3000, 0x55)]
      (fun t => t.pc == 0x0000 && !t.inte && !t.halted && !t.eiPending && t.faulted.isNone && t.byteAt 0x3000 == 0x55) = true := by
  decide +kernel

/-! ### Kinds of address, and how a program is placed -/

/-- The first byte 08, read from a device address, faults: its event stays, its answer is taken, and no state changes but the mark
(60_exceptions.md R260, R275; 20_memory.md R56). -/
theorem test_fault_from_device :
    let s : State := { start with params := mapped 0x0100 0x01FF .device, inputs := [0x08, 0x00] }
    let t := s.transition
    t.faulted = some (.undefinedOpcode 0x08 0x0100) ∧ t.history = [.deviceRead 0x0100 0x08] ∧ t.inputs = [0x00] ∧ t.pc = s.pc ∧
      t.regs = s.regs ∧ t.mem = s.mem := by
  decide +kernel

/-- A write to ROM does nothing (20_memory.md R57). -/
theorem test_store_rom :
    after [0x77] { start with regs := { zeros with a := 0x5A, h := 0x20 }, params := mapped 0x2000 0x2FFF .rom } []
      (fun t => t.byteAt 0x2000 == 0x00 && t.history == []) = true := by
  decide +kernel

/-- A read of a device address draws and records (20_memory.md R56). -/
theorem test_load_device :
    after [0x7E] { start with regs := { zeros with h := 0x20 }, params := mapped 0x2000 0x2FFF .device, inputs := [0x5A] } []
      (fun t => t.regs.a == 0x5A && t.history == [.deviceRead 0x2000 0x5A]) = true := by
  decide +kernel

/-- A word placed by `withFetchWord` is what the first step from reset runs. -/
theorem test_withFetchWord :
    step (State.reset.withFetchWord 16 0b00000101_00111110) =
      .next { State.reset.withFetchWord 16 0b00000101_00111110 with pc := 0x0002, regs := { zeros with a := 0x05 } } :=
  eq_next_of_answers (by decide +kernel)

/-! ### The assembler -/

/-- R105's example: `BDOS EQU 05H`, used in a call; R104's form of a constant. -/
theorem test_assemble_equ :
    hexConstant ['0', '5', 'H'] = some 0x05 ∧ hexConstant ['F', 'F', 'H'] = none ∧
    assembleImage
      [{ label := some "BDOS", op := .equ (.num 0x05) }, { label := none, op := .org (.num 0x100) },
       { label := none, op := .code "CALL" [.name "BDOS"] }] =
    .ok [(0x100, 0xCD), (0x101, 0x05), (0x102, 0x00)] := by
  decide +kernel

/-- DB, DW with the low byte first (R82), DS, and a label used before it is defined. -/
theorem test_assemble_data :
    assembleImage
      [{ label := none, op := .code "JMP" [.name "HERE"] }, { label := none, op := .db [.chr 'A', .num 0x80] },
       { label := none, op := .ds (.num 2) }, { label := some "HERE", op := .dw [.num 0x1234] }, { label := none, op := .finish },
       { label := none, op := .db [.num 1] }] =
    .ok [(0, 0xC3), (1, 0x07), (2, 0x00), (3, 0x41), (4, 0x80), (7, 0x34), (8, 0x12)] := by
  decide +kernel

/-- `MOV M,M` is no instruction (R98). -/
theorem test_assemble_no_mov_m_m :
    assembleImage [{ label := none, op := .code "MOV" [.name "M", .name "M"] }] = .error (.badOperands "MOV") := by
  decide +kernel

/-! ### Witnesses: the hypotheses of the statements can be met -/

theorem witness_LoadByKind_StoreByKind :
    kindAt (mapped 0x2000 0x2FFF .ram) 0x2000 = .ram ∧ kindAt (mapped 0x2000 0x2FFF .rom) 0x2FFF = .rom ∧
    kindAt (mapped 0x0000 0xFFFF .unpopulated) 0xFFFF = .unpopulated ∧ kindAt (mapped 0x2000 0x2FFF .device) 0x2000 = .device ∧
    kindAt (mapped 0x2000 0x2FFF .device) 0x1FFF = .ram ∧ start.params.memMap = [] := by
  decide +kernel

theorem witness_MemoryReadAfterWrite :
    Memory.wf [(0x0000, 0x01), (0xFFFF, 0x02)] = true ∧ (0x0000 : Nat) < 2 ^ 16 ∧ (0xFFFF : Nat) < 2 ^ 16 := by
  decide

theorem witness_MemoryCanonical :
    Memory.wf [(0x0000, 0x01), (0xFFFF, 0x02)] = true ∧
    ∀ a < 2 ^ 16, memGet [(0x0000, 0x01), (0xFFFF, 0x02)] a = memGet [(0x0000, 0x01), (0xFFFF, 0x02)] a :=
  ⟨by decide, fun _ _ => rfl⟩

/-- For PushThenPop, PswRoundTrip (the first clause) and CallThenReturn: RAM below SP, also where SP wraps. -/
theorem witness_ram_below_sp :
    (kindAt start.params (start.sp - 1) = .ram ∧ kindAt start.params (start.sp - 2) = .ram) ∧
    kindAt State.reset.params (State.reset.sp - 1) = .ram ∧ kindAt State.reset.params (State.reset.sp - 2) = .ram := by
  decide +kernel

/-- For the second clause of PswRoundTrip. -/
theorem witness_PswRoundTrip_pop :
    kindAt start.params start.sp = .ram ∧ kindAt start.params (start.sp + 1) = .ram ∧
    start.params.pswFixed = Config.Params.standard.pswFixed := by
  decide +kernel

theorem witness_DecodeEncode :
    (Instr.mviR .a 0xFF).wellFormed = true ∧ (Instr.ldax .de).wellFormed = true ∧ (Instr.popRp .hl).wellFormed = true := by
  decide

theorem witness_EncodeDecode :
    decode [0x31, 0xFF, 0xFF, 0x00] = .ok (.lxi .sp 0xFFFF, [0x00]) ∧ decode [0xFF] = .ok (.rst 7, []) := by
  decide +kernel

theorem witness_EveryFirstByteDecodes :
    ([] : List Byte).length + 1 < opLength 0x3E ∧ ([0x00] : List Byte).length + 1 < opLength 0xC3 := by
  decide +kernel

/-- A first byte of each length. -/
theorem witness_InstructionLengths :
    (0x01 : Byte) ∉ undefinedBytes ∧ (0xDB : Byte) ∉ undefinedBytes ∧ (0xFF : Byte) ∉ undefinedBytes := by
  decide

/-- For LoadToRegister and StoreFromRegister: each of the two pairs. -/
theorem witness_pair_addresses_memory : (RegPair.bc = .bc ∨ RegPair.bc = .de) ∧ (RegPair.de = .bc ∨ RegPair.de = .de) := by decide

/-- For PushPair and PopPair: each of the three pairs. -/
theorem witness_pair_stackable : RegPair.bc ≠ .sp ∧ RegPair.de ≠ .sp ∧ RegPair.hl ≠ .sp := by decide

theorem witness_LoadPairImmediate_other_pair : RegPair.bc ≠ .hl ∧ RegPair.hl ≠ .sp := by decide

theorem witness_IllFormedRefused :
    (Instr.ldax .hl).wellFormed = false ∧ exec (.pushRp .sp) start = .refused (.illFormed "PUSH") :=
  ⟨by decide, eq_refused_of_answers (by decide +kernel)⟩

theorem witness_AndWithA :
    start.params.acAnd = .orBit3 ∧
    ({ start with params := { Config.Params.standard with acAnd := .zero } } : State).params.acAnd = .zero := by
  decide

/-- For DecimalAddition: 99 + 99 with a carry, and 00 + 00. -/
theorem witness_DecimalAddition :
    let s : State := { start with regs := { zeros with a := 0x99, b := 0x99 }, flags := flags 0 0 0 0 1 }
    (s.regs.a.toNat % 16 ≤ 9 ∧ s.regs.a.toNat / 16 ≤ 9 ∧ (s.getReg .b).toNat % 16 ≤ 9 ∧ (s.getReg .b).toNat / 16 ≤ 9) ∧
    start.regs.a.toNat % 16 ≤ 9 ∧ start.regs.a.toNat / 16 ≤ 9 ∧ (start.getReg .b).toNat % 16 ≤ 9 ∧
      (start.getReg .b).toNat / 16 ≤ 9 := by
  decide +kernel

theorem witness_InputOutput : ({ start with inputs := [0x5A] } : State).inputs = 0x5A :: [] := by decide

theorem witness_UndefinedBytes : start.params.undoc = .fault ∧ ({ start with params := aliasing } : State).params.undoc = .alias_ := by
  decide

/-- For StepRunsDecoded: no request, and a request that is not accepted; both clauses, the first also at the top of memory. -/
theorem witness_StepRunsDecoded :
    let s := placed [0x06, 0x7F] start []
    let t := placed [0x00] { start with pc := 0xFFFF, offers := [.request 3] } []
    (s.faulted = none ∧ s.halted = false ∧ s.takeOffer.1 = .quiet ∧ s.storedAt s.pc = true ∧
      decode (s.bytesAt s.pc) = .ok (.mviR .b 0x7F, [0x00]) ∧ decode s.takeOffer.2.fetch.1 = .ok (.mviR .b 0x7F, [])) ∧
    (t.faulted = none ∧ t.halted = false ∧ t.takeOffer.1 = .request 3 ∧ t.acceptEnabled = false ∧ t.storedAt t.pc = true ∧
      decode (t.bytesAt t.pc) = .ok (.nop, [0x00, 0x00]) ∧ decode t.takeOffer.2.fetch.1 = .ok (.nop, [])) := by
  decide +kernel

/-- For StepFaultsAtUndefinedByte: in RAM with nothing offered, in ROM with a request that is not accepted, and from a device address;
and a further step that is no reset. -/
theorem witness_StepFaultsAtUndefinedByte :
    let s := placed [0xFD] start []
    let t := placed [0x08] { start with params := mapped 0x0000 0x0FFF .rom, offers := [.request 3] } []
    let u : State := { start with params := mapped 0x0000 0x0FFF .device, inputs := [0x08] }
    (s.faulted = none ∧ s.halted = false ∧ s.takeOffer.1 = .quiet ∧ s.params.undoc = .fault ∧ kindAt s.params s.pc = .ram ∧
      (s.takeOffer.2.load s.pc).1 ∈ undefinedBytes ∧ s.transition.takeOffer.1 ≠ .reset) ∧
    (t.faulted = none ∧ t.halted = false ∧ t.takeOffer.1 = .request 3 ∧ t.acceptEnabled = false ∧ t.params.undoc = .fault ∧
      kindAt t.params t.pc = .rom ∧ (t.takeOffer.2.load t.pc).1 ∈ undefinedBytes ∧ t.transition.takeOffer.1 ≠ .reset) ∧
    (u.faulted = none ∧ u.halted = false ∧ u.takeOffer.1 = .quiet ∧ u.params.undoc = .fault ∧
      (u.takeOffer.2.load u.pc).1 ∈ undefinedBytes ∧ u.transition.takeOffer.1 ≠ .reset) := by
  decide +kernel

/-- For InterruptEntry and InterruptThenReturn: out of the halt, and the least and the greatest number. -/
theorem witness_InterruptEntry :
    let s : State := { start with inte := true, halted := true, offers := [.request 7, .quiet] }
    let t : State := { start with inte := true, offers := [.request 0] }
    (s.takeOffer.1 = .request 7 ∧ s.inte = true ∧ s.eiPending = false ∧ s.faulted = none ∧
      kindAt s.params (s.sp - 1) = .ram ∧ kindAt s.params (s.sp - 2) = .ram) ∧
    (t.takeOffer.1 = .request 0 ∧ t.inte = true ∧ t.eiPending = false ∧ t.faulted = none ∧
      kindAt t.params (t.sp - 1) = .ram ∧ kindAt t.params (t.sp - 2) = .ram) := by
  decide +kernel

/-- For RequestNotAccepted: each of the three reasons, and a list that has run out. -/
theorem witness_RequestNotAccepted :
    let s : State := { start with offers := [.request 3] }
    let t : State := { s with inte := true, eiPending := true }
    let u : State := { s with inte := true, faulted := some (.undefinedOpcode 0x08 0x0100) }
    (s.takeOffer.1 = .request 3 ∧ s.inte = false) ∧ (t.takeOffer.1 = .request 3 ∧ t.eiPending = true) ∧
      (u.takeOffer.1 = .request 3 ∧ u.faulted ≠ none) ∧ start.takeOffer.1 ≠ .reset ∧ start.inte = false := by
  decide

/-- For EiDelay: EI, and another instruction with INTE set and no fault. -/
theorem witness_EiDelay :
    (exec .ei start = .next { start with pc := 0x0101, inte := true, eiPending := true }) ∧
    (exec .nop { start with inte := true, eiPending := true } = .next { start with pc := 0x0101, inte := true }) :=
  ⟨eq_next_of_answers (by decide +kernel), eq_next_of_answers (by decide +kernel)⟩

/-- For HaltedStays: both clauses. -/
theorem witness_HaltedStays :
    let s : State := { start with halted := true }
    let t : State := { start with halted := true, offers := [.request 3] }
    (s.halted = true ∧ s.faulted = none ∧ s.takeOffer.1 = .quiet) ∧
    (t.halted = true ∧ t.faulted = none ∧ t.takeOffer.1 = .request 3 ∧ t.inte = false ∧ t.final = true ∧
      ∀ o ∈ t.offers, o ≠ .reset) := by
  decide

/-- For ResetOfRunningMachine: the default RESET_STATE, and one that gives every value. -/
theorem witness_ResetOfRunningMachine :
    let r : Config.ResetState :=
      { Config.ResetState.standard with
        a := some 0xFF, b := some 0x01, c := some 0x02, d := some 0x03, e := some 0x04, h := some 0x05, l := some 0x00
        sp := some 0xFFFF, s := some true, z := some false, ac := some true, p := some false, cy := some true }
    let s : State := { start with offers := [.reset] }
    let t : State := { start with offers := [.reset], params := { Config.Params.standard with resetState := r } }
    (s.offers = .reset :: [] ∧ s.params = Config.Params.standard) ∧
    (t.offers = .reset :: [] ∧ t.params.resetState = r ∧ (Reg.l, r.l) = (.l, some 0x00) ∧ r.sp = some 0xFFFF ∧
      (t.flags.p, r.p) = (t.flags.p, some false)) := by
  decide

/-- For StepKeepsInv, StepKeepsRecord and OnlyRamChanges (the step's clauses, with an address that is not RAM). -/
theorem witness_step_next :
    let s := placed [0x3E, 0x05] { start with params := mapped 0x2000 0x2FFF .rom } []
    s.Inv ∧ step s = .next { s with pc := 0x0102, regs := { zeros with a := 0x05 } } ∧ kindAt s.params 0x2000 ≠ .ram ∧
      (0x2000 : Word) ∉ stepStores s :=
  ⟨⟨by decide +kernel, by decide +kernel, by decide +kernel, by decide +kernel⟩, eq_next_of_answers (by decide +kernel),
    by decide +kernel, by decide +kernel⟩

/-- For OnlyRamChanges: an instruction and a step that store two bytes, with an address just outside them. -/
theorem witness_OnlyRamChanges :
    exec (.rst 7) start = .next { start with mem := [(0x23FE, 0x01), (0x23FF, 0x01)], sp := 0x23FE, pc := 0x0038 } ∧
    storeAddresses (.rst 7) start = [0x23FF, 0x23FE] ∧ (0x2400 : Word) ∉ storeAddresses (.rst 7) start ∧
    stepStores (placed [0xFF] start []) = [0x23FF, 0x23FE] :=
  ⟨eq_next_of_answers (by decide +kernel), by decide +kernel, by decide +kernel, by decide +kernel⟩

/-- For StepStopsOnlyAtUndefined. -/
theorem witness_StepStopsOnlyAtUndefined :
    (placed [0xFD] start []).faulted = none ∧ step (placed [0xFD] start []) = .fault (.undefinedOpcode 0xFD 0x0100) :=
  ⟨by decide +kernel, eq_fault_of_answers (by decide +kernel)⟩

/-- For InteOnlyByEi: a step that sets INTE, and one that halts. -/
theorem witness_InteOnlyByEi :
    let s := placed [0xFB] start []
    let t := placed [0x76] start []
    (s.takeOffer.1 ≠ .reset ∧ s.inte = false ∧ step s = .next { s with pc := 0x0101, inte := true, eiPending := true }) ∧
    (t.takeOffer.1 ≠ .reset ∧ t.halted = false ∧ step t = .next { t with pc := 0x0101, halted := true }) :=
  ⟨⟨by decide +kernel, by decide +kernel, eq_next_of_answers (by decide +kernel)⟩,
    ⟨by decide +kernel, by decide +kernel, eq_next_of_answers (by decide +kernel)⟩⟩

/-- For AssembledDecodes: operands with the greatest values that fit, the pairs, and an instruction that assembles. -/
theorem witness_AssembledDecodes :
    asmValue [] (.num 0xFF) = .ok (0xFF : Byte).toNat ∧ asmValue [] (.num 0xFFFF) = .ok (0xFFFF : Word).toNat ∧
    asmValue [] (.num 7) = .ok (7 : BitVec 3).toNat ∧ (RegPair.de = .bc ∨ RegPair.de = .de) ∧ RegPair.hl ≠ .sp ∧
    instrNamed (asmValue []) "LXI" [.name "SP", .num 0xFFFF] = .ok (.lxi .sp 0xFFFF) ∧
    instrNamed (asmValue []) "RST" [.num 7] = .ok (.rst 7) := by
  decide +kernel

end Sys2Proof.Tests
end

section
/-! SUPPORT. 16-bit transfers (spec/41_transfer16.md): reading a pair after a write to it, and LXI. -/

namespace Sys2Proof.Machine

/-- A pair reads as what was written to it: both of its bytes, or SP. -/
theorem State.getPair_setPair_self (s : State) (p : RegPair) (w : Word) : (s.setPair p w).getPair p = w := by
  rcases s.getPair_setPair_same p w with hbytes | ⟨-, hsp⟩
  · rw [hbytes, joinBytes_hi_lo]
  · exact hsp

/-- A is in no pair of R23. -/
theorem State.setPair_regs_a (s : State) (p : RegPair) (w : Word) : (s.setPair p w).regs.a = s.regs.a := by
  cases p <;> rfl

/-- Moving PC leaves every pair as it was. -/
theorem State.getPair_advance (s : State) (len : Word) (p : RegPair) : (s.advance len).getPair p = s.getPair p :=
  State.getPair_congr (s.advance_regs len) (s.advance_sp len) p

/-- LXI writes its pair and moves PC past its three bytes (R122). -/
theorem exec_lxi (pair : RegPair) (imm : Word) (s : State) :
    exec (.lxi pair imm) s = .next ((s.setPair pair imm).advance 3) := rfl

/-- A write to a pair followed by a move of PC keeps the control state but for `ei_pending`. -/
theorem keepsControl_setPair_advance (s : State) (p : RegPair) (w len : Word) :
    KeepsControl s ((s.setPair p w).advance len) := by
  simp [KeepsControl]

/-- A write to a pair followed by a move of PC takes no draw and records nothing. -/
theorem sameEnvironment_setPair_advance (s : State) (p : RegPair) (w len : Word) :
    SameEnvironment s ((s.setPair p w).advance len) := by
  simp [SameEnvironment]

/-- Settles O14: the state after LXI is a write to the pair and a move of PC, so each clause is a law of those two. -/
theorem loadPairImmediate : Obligations.LoadPairImmediate := by
  intro pair imm s
  refine ⟨rfl, (s.setPair pair imm).advance 3, exec_lxi pair imm s, ?written, ?others, ?a, ?flags, ?pc,
    keepsControl_setPair_advance s pair imm 3, sameEnvironment_setPair_advance s pair imm 3, ?memory⟩
  case written => rw [State.getPair_advance, State.getPair_setPair_self]
  case others =>
    intro q hq
    rw [State.getPair_advance, State.getPair_setPair_other s imm hq]
  case a => rw [State.advance_regs, State.setPair_regs_a]
  case flags => rw [State.advance_flags, State.setPair_flags]
  case pc => rw [State.advance_pc, State.setPair_pc]
  case memory =>
    intro a
    rw [State.advance_byteAt, State.setPair_byteAt]

end Sys2Proof.Machine
end

section
/-! SUPPORT. Jumps (spec/45_control.md R201, R204 to R211): each is a move of PC to the target or past its three bytes. -/

namespace Sys2Proof.Machine

/-- Taken or not, a jump of three bytes only sets PC: the condition chooses the address. -/
theorem State.jumpIf_eq_goto (s : State) (taken : Bool) (target : Word) :
    s.jumpIf taken target = s.goto (if taken then target else s.pc + 3) := by
  cases taken <;> rfl

/-- Setting PC keeps the control state but for `ei_pending`. -/
theorem keepsControl_goto (s : State) (target : Word) : KeepsControl s (s.goto target) := by
  simp [KeepsControl]

/-- Setting PC takes no draw and records nothing. -/
theorem sameEnvironment_goto (s : State) (target : Word) : SameEnvironment s (s.goto target) := by
  simp [SameEnvironment]

/-- JMP and the conditional jumps to `adr`, each with its first byte (`11000011`, `11CCC010`) and whether these flags take it (R32). -/
def jumpForms (adr : Word) (f : Flags) : List (Instr × Byte × Bool) :=
  [(.jmp adr, 0b11000011, true), (.jnz adr, 0b11000010, !f.z), (.jz adr, 0b11001010, f.z), (.jnc adr, 0b11010010, !f.cy),
    (.jc adr, 0b11011010, f.cy), (.jpo adr, 0b11100010, !f.p), (.jpe adr, 0b11101010, f.p), (.jp adr, 0b11110010, !f.s),
    (.jm adr, 0b11111010, f.s)]

/-- A jump is its first byte and the address, low byte first. -/
theorem encode_jumpForms (adr : Word) (f : Flags) {p : Instr × Byte × Bool} (hp : p ∈ jumpForms adr f) :
    encode p.1 = [p.2.1, loByte adr, hiByte adr] := by
  simp only [jumpForms, List.mem_cons, List.not_mem_nil, or_false] at hp
  rcases hp with rfl | rfl | rfl | rfl | rfl | rfl | rfl | rfl | rfl <;> rfl

/-- What `exec` makes of a jump: JMP is the jump that is always taken, the others read the one flag their condition names. -/
theorem exec_jumpForms (adr : Word) (s : State) {p : Instr × Byte × Bool} (hp : p ∈ jumpForms adr s.flags) :
    exec p.1 s = .next (s.jumpIf p.2.2 adr) := by
  simp only [jumpForms, List.mem_cons, List.not_mem_nil, or_false] at hp
  rcases hp with rfl | rfl | rfl | rfl | rfl | rfl | rfl | rfl | rfl <;> rfl

/-- Settles O33: the state after any of the nine jumps is the old one with PC set, so each clause is a law of `State.goto`. -/
theorem jumps : Obligations.Jumps := by
  intro adr s p hp
  have hexec : exec p.1 s = .next (s.goto (if p.2.2 then adr else s.pc + 3)) := by
    rw [exec_jumpForms adr s hp, State.jumpIf_eq_goto]
  exact ⟨encode_jumpForms adr s.flags hp, _, hexec, State.goto_pc _ _, State.goto_sp _ _, State.goto_regs _ _,
    State.goto_flags _ _, keepsControl_goto _ _, sameEnvironment_goto _ _, State.goto_byteAt _ _⟩

end Sys2Proof.Machine
end

section
/-! SUPPORT. STC, CMC, CMA and NOP (spec/47_other.md R242 to R245): a write to the flags or to A, and a move of PC. -/

namespace Sys2Proof.Machine

/-- STC writes CY and moves PC past its one byte (R242). -/
theorem exec_stc (s : State) : exec .stc s = .next ((s.withFlags { s.flags with cy := true }).advance 1) := rfl

/-- CMC writes CY and moves PC past its one byte (R243). -/
theorem exec_cmc (s : State) : exec .cmc s = .next ((s.withFlags { s.flags with cy := !s.flags.cy }).advance 1) := rfl

/-- CMA writes A and moves PC past its one byte (R244). -/
theorem exec_cma (s : State) : exec .cma s = .next ((s.setReg .a (~~~s.regs.a)).advance 1) := rfl

/-- NOP moves PC past its one byte (R245). -/
theorem exec_nop (s : State) : exec .nop s = .next (s.advance 1) := rfl

/-- Writing the flags they already hold changes nothing, so NOP is the write of flags that STC and CMC are. -/
theorem State.withFlags_self (s : State) : s.withFlags s.flags = s := rfl

/-- A move of PC clears `ei_pending`, so what came before it has only to keep the rest of the control state. -/
theorem sameControl_advance {s u : State} (h : KeepsControl s u) (len : Word) : SameControl s (u.advance len) :=
  ⟨h, u.advance_eiPending len⟩

/-- A write to the flags followed by a move of PC is an instruction that writes flags only. -/
theorem writesFlags_withFlags_advance (s : State) (f : Flags) (len : Word) {holds : Flags → Prop} (hf : holds f) :
    WritesFlags s s ((s.withFlags f).advance len) len holds := by
  have hcontrol : KeepsControl s (s.withFlags f) := by simp [KeepsControl]
  have henv : SameEnvironment s ((s.withFlags f).advance len) := by simp [SameEnvironment]
  refine ⟨hf, ?regs, ?sp, ?pc, sameControl_advance hcontrol len, henv, ?memory⟩
  case regs => rw [State.advance_regs, State.withFlags_regs]
  case sp => rw [State.advance_sp, State.withFlags_sp]
  case pc => rw [State.advance_pc, State.withFlags_pc]
  case memory =>
    intro a
    rw [State.advance_byteAt, State.withFlags_byteAt]

/-- A write to A followed by a move of PC is an instruction that writes A and keeps the flags. -/
theorem writesAAndFlags_setReg_a_advance (s : State) (v : Byte) (len : Word) {holds : Byte → Flags → Prop}
    (hv : holds v s.flags) : WritesAAndFlags s s ((s.setReg .a v).advance len) len holds := by
  have hcontrol : KeepsControl s (s.setReg .a v) := by simp [KeepsControl]
  have henv : SameEnvironment s ((s.setReg .a v).advance len) := by simp [SameEnvironment]
  refine ⟨hv, ?others, ?sp, ?pc, sameControl_advance hcontrol len, henv, ?memory⟩
  case others =>
    intro r hr
    rw [State.getReg_congr (State.advance_regs _ len), State.getReg_setReg_other s v (List.ne_of_not_mem_cons hr)]
  case sp => rw [State.advance_sp, State.setReg_sp]
  case pc => rw [State.advance_pc, State.setReg_pc]
  case memory =>
    intro a
    rw [State.advance_byteAt, State.setReg_byteAt]

/-- Settles O41: STC, CMC and NOP are writes of the flags (NOP of the old ones) and CMA a write of A, each before a move of PC. -/
theorem carryComplementNop : Obligations.CarryComplementNop := by
  intro s
  have hbits : ∀ k < 8, (~~~s.regs.a).getLsbD k = !s.regs.a.getLsbD k := fun k hk => by simp [hk]
  have hnop := writesFlags_withFlags_advance s s.flags 1 (holds := fun f => f = s.flags) rfl
  rw [State.withFlags_self] at hnop
  refine ⟨rfl, rfl, rfl, rfl, ⟨_, exec_stc s, ?stc⟩, ⟨_, exec_cmc s, ?cmc⟩, ⟨_, exec_cma s, ?cma⟩, ⟨_, exec_nop s, ?nop⟩⟩
  case stc => exact writesFlags_withFlags_advance s _ 1 rfl
  case cmc => exact writesFlags_withFlags_advance s _ 1 rfl
  case cma => exact writesAAndFlags_setReg_a_advance s _ 1 ⟨hbits, rfl⟩
  case nop => exact hnop

end Sys2Proof.Machine
end

section
/-! SUPPORT. The decoder and the encoder undo each other (spec/30_encoding.md R80 to R100): the opcode table row by row. -/

namespace Sys2Proof

/-! ### The row of a first byte -/

theorem rowOf_mem {op : Byte} {r : Row} (h : rowOf op = some r) : r ∈ opcodeRows := List.mem_of_find?_eq_some h

theorem rowOf_has {op : Byte} {r : Row} (h : rowOf op = some r) : r.has op = true :=
  List.find?_some (p := fun r : Row => r.has op) h

/-- With the operand bytes there, the row of the first byte builds the instruction and leaves the bytes after its own. -/
theorem decode_of_row {op : Byte} {tail : List Byte} {r : Row} {i : Instr} (hrow : rowOf op = some r)
    (hlen : r.len ≤ tail.length + 1) (hbuild : r.build op (tail.getD 0 0) (tail.getD 1 0) = some i) :
    decode (op :: tail) = .ok (i, tail.drop (r.len - 1)) := by
  simp only [decode, hrow, if_neg (Nat.not_lt.mpr hlen), hbuild]

/-- Without them, the input is truncated. -/
theorem decode_truncated {op : Byte} {tail : List Byte} {r : Row} (hrow : rowOf op = some r) (hlen : tail.length + 1 < r.len) :
    decode (op :: tail) = .error (.truncated op) := by
  simp only [decode, hrow, if_pos hlen]

/-- What decoded has a first byte with a row, the operand bytes that row asks for, and was built by that row. -/
theorem row_of_decode {bytes : List Byte} {i : Instr} {rest : List Byte} (h : decode bytes = .ok (i, rest)) :
    ∃ op tail r, bytes = op :: tail ∧ rowOf op = some r ∧ r.len ≤ tail.length + 1 ∧
      r.build op (tail.getD 0 0) (tail.getD 1 0) = some i ∧ tail.drop (r.len - 1) = rest := by
  cases bytes with
  | nil => cases h
  | cons op tail =>
    cases hrow : rowOf op with
    | none => simp [decode, hrow] at h
    | some r =>
      by_cases hlen : tail.length + 1 < r.len
      · rw [decode_truncated hrow hlen] at h
        cases h
      · cases hbuild : r.build op (tail.getD 0 0) (tail.getD 1 0) with
        | none => simp only [decode, hrow, if_neg hlen, hbuild] at h; cases h
        | some j =>
          rw [decode_of_row hrow (Nat.le_of_not_lt hlen) hbuild] at h
          cases h
          exact ⟨op, tail, r, rfl, hrow, Nat.le_of_not_lt hlen, hbuild, rfl⟩

theorem opLength_of_rowOf {op : Byte} {r : Row} (h : rowOf op = some r) : opLength op = r.len := by
  simp only [opLength, h]

/-- Every row has one to three bytes (R80). -/
theorem opcodeRows_len {r : Row} (h : r ∈ opcodeRows) : 1 ≤ r.len ∧ r.len ≤ 3 := by
  have hall : ∀ r ∈ opcodeRows, 1 ≤ r.len ∧ r.len ≤ 3 := by decide
  exact hall r h

/-- The bytes an instruction of one to three bytes is read from, then the rest: together all there were. -/
theorem take_append_drop_of_len {op : Byte} {tail : List Byte} {n : Nat} (hpos : 1 ≤ n) (hmax : n ≤ 3)
    (hlen : n ≤ tail.length + 1) :
    [op, tail.getD 0 0, tail.getD 1 0].take n ++ tail.drop (n - 1) = op :: tail := by
  match n, tail with
  | 1, _ => rfl
  | 2, _ :: _ => rfl
  | 3, _ :: _ :: _ => rfl

/-! ### The fields of a first byte -/

theorem code_of_regAt {c : BitVec 3} {r : Reg} (h : regAt c = some r) : r.code = c := by
  have hall : ∀ c : BitVec 3, ∀ r ∈ regAt c, r.code = c := by decide
  exact hall c r h

theorem code_pairAt (c : BitVec 2) : (pairAt c).code = c := by
  have hall : ∀ c : BitVec 2, (pairAt c).code = c := by decide
  exact hall c

/-- A byte is its fixed bits under the mask `11000000` and the fields `DDD` and `SSS`. -/
theorem eq_ddd_sss (op : Byte) : (op &&& 0xC0).extractLsb' 6 2 ++ dddField op ++ sssField op = op := by
  revert op; decide

/-- A byte is its fixed bits under the mask `11000111` and the field `DDD`. -/
theorem eq_ddd (op : Byte) : (op &&& 0xC7).extractLsb' 6 2 ++ dddField op ++ (op &&& 0xC7).extractLsb' 0 3 = op := by
  revert op; decide

/-- A byte is its fixed bits under the mask `11111000` and the field `SSS`. -/
theorem eq_sss (op : Byte) : (op &&& 0xF8).extractLsb' 3 5 ++ sssField op = op := by
  revert op; decide

/-- A byte is its fixed bits under the mask `11001111` and the field `RP`. -/
theorem eq_rp (op : Byte) : (op &&& 0xCF).extractLsb' 6 2 ++ rpField op ++ (op &&& 0xCF).extractLsb' 0 4 = op := by
  revert op; decide

/-- A byte is its fixed bits under the mask `11101111` and the field `RP`, of which the mask fixes bit 5. -/
theorem eq_rp_of_ef (op : Byte) : (op &&& 0xEF).extractLsb' 6 2 ++ rpField op ++ (op &&& 0xEF).extractLsb' 0 4 = op := by
  revert op; decide

/-! ### Each row undoes the encoder -/

/-- What a row builds is well-formed and its bytes are those the row was given. -/
def Row.Inverts (r : Row) : Prop :=
  ∀ (op b2 b3 : Byte) (i : Instr), r.has op = true → r.build op b2 b3 = some i →
    i.wellFormed = true ∧ encode i = [op, b2, b3].take r.len

theorem Row.masked_of_has {r : Row} {op : Byte} (h : r.has op = true) : op &&& r.mask = r.pattern := by
  simp only [Row.has, Bool.and_eq_true, beq_iff_eq] at h
  exact h.1

/-- A row whose mask is the whole byte has its pattern only. -/
theorem Row.eq_pattern_of_has {r : Row} {op : Byte} (hmask : r.mask = 0xFF) (h : r.has op = true) : op = r.pattern := by
  have hand := Row.masked_of_has h
  rw [hmask] at hand
  exact (BitVec.and_allOnes (x := op)).symm.trans hand

/-- One byte, all of it fixed. -/
theorem Row.Inverts.fixed {p : Byte} {j : Instr} (hwf : j.wellFormed = true) (henc : encode j = [p]) :
    Row.Inverts { mask := 0xFF, pattern := p, len := 1, build := fun _ _ _ => some j } := by
  intro op b2 b3 i hhas hbuild
  cases Row.eq_pattern_of_has rfl hhas
  cases hbuild
  exact ⟨hwf, henc⟩

/-- A fixed byte and an 8-bit operand. -/
theorem Row.Inverts.data8 {p : Byte} {k : Byte → Instr} (hwf : ∀ b, (k b).wellFormed = true) (henc : ∀ b, encode (k b) = [p, b]) :
    Row.Inverts { mask := 0xFF, pattern := p, len := 2, build := fun _ b2 _ => some (k b2) } := by
  intro op b2 b3 i hhas hbuild
  cases Row.eq_pattern_of_has rfl hhas
  cases hbuild
  exact ⟨hwf b2, henc b2⟩

/-- A fixed byte and a 16-bit operand, low byte first. -/
theorem Row.Inverts.data16 {p : Byte} {k : Word → Instr} (hwf : ∀ w, (k w).wellFormed = true)
    (henc : ∀ w, encode (k w) = [p, loByte w, hiByte w]) :
    Row.Inverts { mask := 0xFF, pattern := p, len := 3, build := fun _ b2 b3 => some (k (joinBytes b3 b2)) } := by
  intro op b2 b3 i hhas hbuild
  cases Row.eq_pattern_of_has rfl hhas
  cases hbuild
  refine ⟨hwf _, ?_⟩
  rw [henc, Machine.loByte_joinBytes, Machine.hiByte_joinBytes]
  rfl

/-- A source register in the low three bits. -/
theorem Row.Inverts.sss {p : Byte} {k : Reg → Instr} (hwf : ∀ r, (k r).wellFormed = true)
    (henc : ∀ r, encode (k r) = [p.extractLsb' 3 5 ++ r.code]) :
    Row.Inverts { mask := 0xF8, pattern := p, len := 1, build := fun op _ _ => (regAt (sssField op)).map k } := by
  intro op b2 b3 i hhas hbuild
  obtain ⟨r, hr, rfl⟩ := Option.map_eq_some_iff.mp hbuild
  obtain rfl : op &&& 0xF8 = p := Row.masked_of_has hhas
  exact ⟨hwf r, by rw [henc, code_of_regAt hr, eq_sss]; rfl⟩

/-- A destination register in bits 5 to 3. -/
theorem Row.Inverts.ddd {p : Byte} {k : Reg → Instr} (hwf : ∀ r, (k r).wellFormed = true)
    (henc : ∀ r, encode (k r) = [p.extractLsb' 6 2 ++ r.code ++ p.extractLsb' 0 3]) :
    Row.Inverts { mask := 0xC7, pattern := p, len := 1, build := fun op _ _ => (regAt (dddField op)).map k } := by
  intro op b2 b3 i hhas hbuild
  obtain ⟨r, hr, rfl⟩ := Option.map_eq_some_iff.mp hbuild
  obtain rfl : op &&& 0xC7 = p := Row.masked_of_has hhas
  exact ⟨hwf r, by rw [henc, code_of_regAt hr, eq_ddd]; rfl⟩

/-- A pair in bits 5 and 4. -/
theorem Row.Inverts.rp {p : Byte} {k : RegPair → Instr} (hwf : ∀ q, (k q).wellFormed = true)
    (henc : ∀ q, encode (k q) = [p.extractLsb' 6 2 ++ q.code ++ p.extractLsb' 0 4]) :
    Row.Inverts { mask := 0xCF, pattern := p, len := 1, build := fun op _ _ => some (k (pairAt (rpField op))) } := by
  intro op b2 b3 i hhas hbuild
  obtain rfl : op &&& 0xCF = p := Row.masked_of_has hhas
  cases hbuild
  exact ⟨hwf _, by rw [henc, code_pairAt, eq_rp]; rfl⟩

/-- A pair other than SP in bits 5 and 4 (R99 b). -/
theorem Row.Inverts.stacked {p : Byte} {k : RegPair → Instr} (hwf : ∀ q, q ≠ .sp → (k q).wellFormed = true)
    (henc : ∀ q, encode (k q) = [p.extractLsb' 6 2 ++ q.code ++ p.extractLsb' 0 4]) :
    Row.Inverts { mask := 0xCF, pattern := p, len := 1
                  build := fun op _ _ => if pairAt (rpField op) = .sp then none else some (k (pairAt (rpField op))) } := by
  intro op b2 b3 i hhas hbuild
  obtain ⟨hq, hbuild⟩ := Option.ite_none_left_eq_some.mp hbuild
  cases hbuild
  obtain rfl : op &&& 0xCF = p := Row.masked_of_has hhas
  exact ⟨hwf _ hq, by rw [henc, code_pairAt, eq_rp]; rfl⟩

/-- BC or DE in bit 4 (R99 a). -/
theorem Row.Inverts.bcOrDe {p : Byte} {k : RegPair → Instr} (hwf : ∀ q, q.addressesMemory = true → (k q).wellFormed = true)
    (hbit : p.getLsbD 5 = false) (henc : ∀ q, encode (k q) = [p.extractLsb' 6 2 ++ q.code ++ p.extractLsb' 0 4]) :
    Row.Inverts { mask := 0xEF, pattern := p, len := 1, build := fun op _ _ => some (k (pairAt (rpField op))) } := by
  intro op b2 b3 i hhas hbuild
  obtain rfl : op &&& 0xEF = p := Row.masked_of_has hhas
  cases hbuild
  have hpair : ∀ op : Byte, (op &&& 0xEF).getLsbD 5 = false → (pairAt (rpField op)).addressesMemory = true := by decide
  exact ⟨hwf _ (hpair op hbit), by rw [henc, code_pairAt, eq_rp_of_ef]; rfl⟩

/-- MOV r1,r2: a register in both fields. -/
theorem Row.Inverts.movRR :
    Row.Inverts { mask := 0xC0, pattern := 0x40, len := 1
                  build := fun op _ _ => (regAt (dddField op)).bind fun dst => (regAt (sssField op)).map fun src => .movRR dst src } := by
  intro op b2 b3 i hhas hbuild
  obtain ⟨dst, hdst, hbuild⟩ := Option.bind_eq_some_iff.mp hbuild
  obtain ⟨src, hsrc, rfl⟩ := Option.map_eq_some_iff.mp hbuild
  have hmasked : op &&& 0xC0 = 0x40 := Row.masked_of_has hhas
  have hbytes := eq_ddd_sss op
  rw [hmasked, ← code_of_regAt hdst, ← code_of_regAt hsrc] at hbytes
  exact ⟨rfl, congrArg (· :: []) hbytes⟩

/-- MVI r: a register in bits 5 to 3 and an 8-bit operand. -/
theorem Row.Inverts.mviR :
    Row.Inverts { mask := 0xC7, pattern := 0x06, len := 2
                  build := fun op b2 _ => (regAt (dddField op)).map fun dst => .mviR dst b2 } := by
  intro op b2 b3 i hhas hbuild
  obtain ⟨dst, hdst, rfl⟩ := Option.map_eq_some_iff.mp hbuild
  have hmasked : op &&& 0xC7 = 0x06 := Row.masked_of_has hhas
  have hbytes := eq_ddd op
  rw [hmasked, ← code_of_regAt hdst] at hbytes
  exact ⟨rfl, congrArg (· :: [b2]) hbytes⟩

/-- LXI: a pair in bits 5 and 4 and a 16-bit operand. -/
theorem Row.Inverts.lxi :
    Row.Inverts { mask := 0xCF, pattern := 0x01, len := 3
                  build := fun op b2 b3 => some (.lxi (pairAt (rpField op)) (joinBytes b3 b2)) } := by
  intro op b2 b3 i hhas hbuild
  cases hbuild
  have hmasked : op &&& 0xCF = 0x01 := Row.masked_of_has hhas
  have hbytes := eq_rp op
  rw [hmasked, ← code_pairAt (rpField op)] at hbytes
  refine ⟨rfl, ?_⟩
  simp only [encode, Machine.loByte_joinBytes, Machine.hiByte_joinBytes]
  exact congrArg (· :: [b2, b3]) hbytes

/-- RST: any number in bits 5 to 3. -/
theorem Row.Inverts.rst :
    Row.Inverts { mask := 0xC7, pattern := 0xC7, len := 1, build := fun op _ _ => some (.rst (dddField op)) } := by
  intro op b2 b3 i hhas hbuild
  cases hbuild
  have hmasked : op &&& 0xC7 = 0xC7 := Row.masked_of_has hhas
  have hbytes := eq_ddd op
  rw [hmasked] at hbytes
  exact ⟨rfl, congrArg (· :: []) hbytes⟩

/-- The property holds of a list of rows: one goal per row. -/
def AllInvert (rows : List Row) : Prop := ∀ r ∈ rows, r.Inverts

theorem AllInvert.nil : AllInvert [] := fun _ h => absurd h List.not_mem_nil

theorem AllInvert.cons {r : Row} {rows : List Row} (hr : r.Inverts) (h : AllInvert rows) : AllInvert (r :: rows) :=
  List.forall_mem_cons.mpr ⟨hr, h⟩

theorem AllInvert.append {rows rows' : List Row} (h : AllInvert rows) (h' : AllInvert rows') : AllInvert (rows ++ rows') :=
  List.forall_mem_append.mpr ⟨h, h'⟩

/-- PUSH and POP of BC, DE and HL are instructions (R99 b). -/
theorem stackable_of_ne_sp {pair : RegPair} (h : pair ≠ .sp) : pair.stackable = true := by
  cases pair with
  | bc | de | hl => rfl
  | sp => exact absurd rfl h

theorem rowsTransfer8_invert : AllInvert rowsTransfer8 :=
  .cons .movRR <| .cons (.ddd (fun _ => rfl) (fun _ => rfl)) <| .cons (.sss (fun _ => rfl) (fun _ => rfl)) <| .cons .mviR <|
  .cons (.data8 (fun _ => rfl) (fun _ => rfl)) <| .cons (.data16 (fun _ => rfl) (fun _ => rfl)) <|
  .cons (.data16 (fun _ => rfl) (fun _ => rfl)) <| .cons (.bcOrDe (fun _ h => h) rfl (fun _ => rfl)) <|
  .cons (.bcOrDe (fun _ h => h) rfl (fun _ => rfl)) <| .nil

theorem rowsTransfer16_invert : AllInvert rowsTransfer16 :=
  .cons (.data16 (fun _ => rfl) (fun _ => rfl)) <| .cons (.data16 (fun _ => rfl) (fun _ => rfl)) <| .cons .lxi <|
  .cons (.stacked (fun _ => stackable_of_ne_sp) (fun _ => rfl)) <| .cons (.fixed rfl rfl) <|
  .cons (.stacked (fun _ => stackable_of_ne_sp) (fun _ => rfl)) <| .cons (.fixed rfl rfl) <| .cons (.fixed rfl rfl) <|
  .cons (.fixed rfl rfl) <| .cons (.fixed rfl rfl) <| .cons (.fixed rfl rfl) <| .nil

theorem rowsArith8_invert : AllInvert rowsArith8 :=
  .cons (.sss (fun _ => rfl) (fun _ => rfl)) <| .cons (.fixed rfl rfl) <| .cons (.sss (fun _ => rfl) (fun _ => rfl)) <|
  .cons (.fixed rfl rfl) <| .cons (.sss (fun _ => rfl) (fun _ => rfl)) <| .cons (.fixed rfl rfl) <|
  .cons (.sss (fun _ => rfl) (fun _ => rfl)) <| .cons (.fixed rfl rfl) <| .cons (.sss (fun _ => rfl) (fun _ => rfl)) <|
  .cons (.fixed rfl rfl) <| .cons (.sss (fun _ => rfl) (fun _ => rfl)) <| .cons (.fixed rfl rfl) <|
  .cons (.sss (fun _ => rfl) (fun _ => rfl)) <| .cons (.fixed rfl rfl) <| .cons (.sss (fun _ => rfl) (fun _ => rfl)) <|
  .cons (.fixed rfl rfl) <| .cons (.ddd (fun _ => rfl) (fun _ => rfl)) <| .cons (.fixed rfl rfl) <|
  .cons (.ddd (fun _ => rfl) (fun _ => rfl)) <| .cons (.fixed rfl rfl) <| .cons (.data8 (fun _ => rfl) (fun _ => rfl)) <|
  .cons (.data8 (fun _ => rfl) (fun _ => rfl)) <| .cons (.data8 (fun _ => rfl) (fun _ => rfl)) <|
  .cons (.data8 (fun _ => rfl) (fun _ => rfl)) <| .cons (.data8 (fun _ => rfl) (fun _ => rfl)) <|
  .cons (.data8 (fun _ => rfl) (fun _ => rfl)) <| .cons (.data8 (fun _ => rfl) (fun _ => rfl)) <|
  .cons (.data8 (fun _ => rfl) (fun _ => rfl)) <| .cons (.fixed rfl rfl) <| .nil

theorem rowsArith16_invert : AllInvert rowsArith16 :=
  .cons (.rp (fun _ => rfl) (fun _ => rfl)) <| .cons (.rp (fun _ => rfl) (fun _ => rfl)) <|
  .cons (.rp (fun _ => rfl) (fun _ => rfl)) <| .nil

theorem rowsControl_invert : AllInvert rowsControl :=
  .cons (.data16 (fun _ => rfl) (fun _ => rfl)) <| .cons (.data16 (fun _ => rfl) (fun _ => rfl)) <|
  .cons (.fixed rfl rfl) <| .cons (.data16 (fun _ => rfl) (fun _ => rfl)) <|
  .cons (.data16 (fun _ => rfl) (fun _ => rfl)) <| .cons (.data16 (fun _ => rfl) (fun _ => rfl)) <|
  .cons (.data16 (fun _ => rfl) (fun _ => rfl)) <| .cons (.data16 (fun _ => rfl) (fun _ => rfl)) <|
  .cons (.data16 (fun _ => rfl) (fun _ => rfl)) <| .cons (.data16 (fun _ => rfl) (fun _ => rfl)) <|
  .cons (.data16 (fun _ => rfl) (fun _ => rfl)) <| .cons (.data16 (fun _ => rfl) (fun _ => rfl)) <|
  .cons (.data16 (fun _ => rfl) (fun _ => rfl)) <| .cons (.data16 (fun _ => rfl) (fun _ => rfl)) <|
  .cons (.data16 (fun _ => rfl) (fun _ => rfl)) <| .cons (.data16 (fun _ => rfl) (fun _ => rfl)) <|
  .cons (.data16 (fun _ => rfl) (fun _ => rfl)) <| .cons (.data16 (fun _ => rfl) (fun _ => rfl)) <|
  .cons (.data16 (fun _ => rfl) (fun _ => rfl)) <| .cons (.fixed rfl rfl) <| .cons (.fixed rfl rfl) <|
  .cons (.fixed rfl rfl) <| .cons (.fixed rfl rfl) <| .cons (.fixed rfl rfl) <| .cons (.fixed rfl rfl) <|
  .cons (.fixed rfl rfl) <| .cons (.fixed rfl rfl) <| .nil

theorem rowsRotate_invert : AllInvert rowsRotate :=
  .cons (.fixed rfl rfl) <| .cons (.fixed rfl rfl) <| .cons (.fixed rfl rfl) <| .cons (.fixed rfl rfl) <| .nil

theorem rowsOther_invert : AllInvert rowsOther :=
  .cons (.data8 (fun _ => rfl) (fun _ => rfl)) <| .cons (.data8 (fun _ => rfl) (fun _ => rfl)) <| .cons (.fixed rfl rfl) <|
  .cons (.fixed rfl rfl) <| .cons (.fixed rfl rfl) <| .cons (.fixed rfl rfl) <| .cons (.fixed rfl rfl) <|
  .cons (.fixed rfl rfl) <| .cons (.fixed rfl rfl) <| .cons .rst <| .nil

theorem rowsUndefined_invert : AllInvert rowsUndefined :=
  .cons (.fixed rfl rfl) <| .cons (.fixed rfl rfl) <| .cons (.fixed rfl rfl) <| .cons (.fixed rfl rfl) <|
  .cons (.fixed rfl rfl) <| .cons (.fixed rfl rfl) <| .cons (.fixed rfl rfl) <|
  .cons (.data16 (fun _ => rfl) (fun _ => rfl)) <| .cons (.fixed rfl rfl) <|
  .cons (.data16 (fun _ => rfl) (fun _ => rfl)) <| .cons (.data16 (fun _ => rfl) (fun _ => rfl)) <|
  .cons (.data16 (fun _ => rfl) (fun _ => rfl)) <| .nil

/-- Every row of the table undoes the encoder. -/
theorem opcodeRows_invert : AllInvert opcodeRows :=
  ((((((rowsTransfer8_invert.append rowsTransfer16_invert).append rowsArith8_invert).append rowsArith16_invert).append
    rowsControl_invert).append rowsRotate_invert).append rowsOther_invert).append rowsUndefined_invert

/-- Settles O7: decoding runs one row of the table, that row undoes the encoder, and it reads as many bytes as it is long. -/
theorem encodeDecode : Obligations.EncodeDecode := by
  intro bytes i rest h
  obtain ⟨op, tail, r, rfl, hrow, hlen, hbuild, rfl⟩ := row_of_decode h
  obtain ⟨hwf, henc⟩ := opcodeRows_invert r (rowOf_mem hrow) op _ _ i (rowOf_has hrow) hbuild
  obtain ⟨hpos, hmax⟩ := opcodeRows_len (rowOf_mem hrow)
  exact ⟨hwf, by rw [henc, take_append_drop_of_len hpos hmax hlen]⟩

/-- What decodes has as many bytes as its first byte says (R80). -/
theorem encode_length_of_decode {op : Byte} {tail : List Byte} {i : Instr} {rest : List Byte}
    (h : decode (op :: tail) = .ok (i, rest)) : (encode i).length = opLength op := by
  obtain ⟨_, _, r, hbytes, hrow, -, hbuild, -⟩ := row_of_decode h
  cases hbytes
  have hmax : r.len ≤ 3 := (opcodeRows_len (rowOf_mem hrow)).2
  rw [(opcodeRows_invert r (rowOf_mem hrow) op _ _ i (rowOf_has hrow) hbuild).2, opLength_of_rowOf hrow, List.length_take]
  exact Nat.min_eq_left hmax

/-! ### Each instruction's bytes reach its row -/

/-- An instruction of one byte. -/
theorem decode_one_byte {op : Byte} {r : Row} {i : Instr} (rest : List Byte) (hrow : rowOf op = some r) (hlen : r.len = 1)
    (hbuild : ∀ b2 b3, r.build op b2 b3 = some i) : decode ([op] ++ rest) = .ok (i, rest) := by
  have h := decode_of_row (tail := rest) hrow (by omega) (hbuild _ _)
  rwa [hlen] at h

/-- An instruction of two bytes. -/
theorem decode_two_bytes {op : Byte} {r : Row} {k : Byte → Instr} (b : Byte) (rest : List Byte) (hrow : rowOf op = some r)
    (hlen : r.len = 2) (hbuild : ∀ b2 b3, r.build op b2 b3 = some (k b2)) : decode ([op, b] ++ rest) = .ok (k b, rest) := by
  have h := decode_of_row (tail := b :: rest) hrow (by simp [hlen]) (hbuild _ _)
  rwa [hlen] at h

/-- An instruction of three bytes: the low byte of its operand comes first. -/
theorem decode_three_bytes {op : Byte} {r : Row} {k : Word → Instr} (w : Word) (rest : List Byte) (hrow : rowOf op = some r)
    (hlen : r.len = 3) (hbuild : ∀ b2 b3, r.build op b2 b3 = some (k (joinBytes b3 b2))) :
    decode ([op, loByte w, hiByte w] ++ rest) = .ok (k w, rest) := by
  have h := decode_of_row (tail := loByte w :: hiByte w :: rest) hrow (by simp [hlen]) (hbuild _ _)
  rw [hlen] at h
  simpa using h

/-- Settles O6: the first byte of each instruction lies in the row of its own, whose fields and operands give it back. -/
theorem decodeEncode : Obligations.DecodeEncode := by
  intro i rest hwf
  cases i with
  | movRR dst src => cases dst <;> cases src <;> exact decode_one_byte rest rfl rfl fun _ _ => rfl
  | movRM r | movMR r | addR r | adcR r | subR r | sbbR r | anaR r | xraR r | oraR r | cmpR r | inrR r | dcrR r =>
    cases r <;> exact decode_one_byte rest rfl rfl fun _ _ => rfl
  | mviR dst imm => cases dst <;> exact decode_two_bytes imm rest rfl rfl fun _ _ => rfl
  | ldax pair | stax pair =>
    cases pair with
    | bc | de => exact decode_one_byte rest rfl rfl fun _ _ => rfl
    | hl | sp => cases hwf
  | pushRp pair | popRp pair =>
    cases pair with
    | bc | de | hl => exact decode_one_byte rest rfl rfl fun _ _ => rfl
    | sp => cases hwf
  | lxi pair imm => cases pair <;> exact decode_three_bytes imm rest rfl rfl fun _ _ => rfl
  | dad pair | inx pair | dcx pair => cases pair <;> exact decode_one_byte rest rfl rfl fun _ _ => rfl
  | rst n =>
    have hn : n = 0 ∨ n = 1 ∨ n = 2 ∨ n = 3 ∨ n = 4 ∨ n = 5 ∨ n = 6 ∨ n = 7 := by revert n; decide
    rcases hn with rfl | rfl | rfl | rfl | rfl | rfl | rfl | rfl <;> exact decode_one_byte rest rfl rfl fun _ _ => rfl
  | mviM b | adi b | aci b | sui b | sbi b | ani b | xri b | ori b | cpi b | inPort b | outPort b =>
    exact decode_two_bytes b rest rfl rfl fun _ _ => rfl
  | lda w | sta w | lhld w | shld w | jmp w | call w | jnz w | jz w | jnc w | jc w | jpo w | jpe w | jp w | jm w | cnz w
  | cz w | cnc w | cc w | cpo w | cpe w | cp w | cm w | undefCB w | undefDD w | undefED w | undefFD w =>
    exact decode_three_bytes w rest rfl rfl fun _ _ => rfl
  | _ => exact decode_one_byte rest rfl rfl fun _ _ => rfl

/-! ### Every first byte has one row -/

/-- R100, over the whole table: 256 first bytes against 105 rows. -/
theorem opcodeRows_filter_has (op : Byte) : (opcodeRows.filter (fun r => r.has op)).length = 1 := by
  revert op; decide +kernel

theorem rowOf_isSome (op : Byte) : ∃ r, rowOf op = some r := by
  have hne : opcodeRows.filter (fun r => r.has op) ≠ [] := by
    intro h
    have hone := opcodeRows_filter_has op
    rw [h] at hone
    cases hone
  obtain ⟨r, hr⟩ := List.exists_mem_of_ne_nil _ hne
  obtain ⟨hmem, hhas⟩ := List.mem_filter.mp hr
  exact Option.isSome_iff_exists.mp (List.find?_isSome.mpr ⟨r, hmem, hhas⟩)

/-- Operand bytes decide nothing (R80): whether a row builds an instruction depends on the first byte only. -/
def Row.IgnoresOperands (r : Row) : Prop := ∀ op b2 b3 : Byte, (r.build op b2 b3).isSome = (r.build op 0 0).isSome

theorem opcodeRows_ignoreOperands : ∀ r ∈ opcodeRows, r.IgnoresOperands := by
  simp only [opcodeRows, rowsTransfer8, rowsTransfer16, rowsArith8, rowsArith16, rowsControl, rowsRotate, rowsOther, rowsUndefined,
    List.forall_mem_append, List.forall_mem_cons, Row.IgnoresOperands]
  simp

theorem rowOf_builds {op : Byte} {r : Row} (h : rowOf op = some r) (b2 b3 : Byte) : ∃ i, r.build op b2 b3 = some i := by
  have hhas := rowOf_has h
  simp only [Row.has, Bool.and_eq_true] at hhas
  rw [← Option.isSome_iff_exists, opcodeRows_ignoreOperands r (rowOf_mem h), hhas.2]

/-- Settles O8: a first byte has one row, which builds an instruction whatever the operands. -/
theorem everyFirstByteDecodes : Obligations.EveryFirstByteDecodes := by
  refine ⟨opcodeRows_filter_has, fun op b2 b3 rest => ?_⟩
  obtain ⟨r, hrow⟩ := rowOf_isSome op
  obtain ⟨hpos, hmax⟩ := opcodeRows_len (rowOf_mem hrow)
  obtain ⟨i, hbuild⟩ := rowOf_builds hrow b2 b3
  rw [opLength_of_rowOf hrow]
  exact ⟨⟨i, decode_of_row hrow (by simp; omega) hbuild⟩, fun short => decode_truncated hrow, hpos, hmax⟩

end Sys2Proof
end

section
/-! SUPPORT. What an instruction answers, what it does to the interrupt state and where it writes, each said once for all
instructions. -/

namespace Sys2Proof.Machine

/-! ### What an instruction answers -/

/-- An instruction runs, is an undefined first byte, or is a term no encoding stands for, which is refused. -/
theorem exec_answers (i : Instr) (s : State) :
    (i.wellFormed = true ∧ ∃ t, exec i s = .next t) ∨
    (i.wellFormed = true ∧ ∃ op ∈ undefinedBytes, ∃ t, exec i s = undefinedFirstByte op s t) ∨
    (i.wellFormed = false ∧ ∃ m, exec i s = .refused (.illFormed m)) := by
  cases i with
  | ldax pair | stax pair =>
    cases pair with
    | bc | de => exact .inl ⟨rfl, _, rfl⟩
    | hl | sp => exact .inr (.inr ⟨rfl, _, rfl⟩)
  | pushRp pair | popRp pair =>
    cases pair with
    | bc | de | hl => exact .inl ⟨rfl, _, rfl⟩
    | sp => exact .inr (.inr ⟨rfl, _, rfl⟩)
  | undef08 | undef10 | undef18 | undef20 | undef28 | undef30 | undef38 | undefCB _ | undefD9 | undefDD _ | undefED _
  | undefFD _ => exact .inr (.inl ⟨rfl, _, by decide, _, rfl⟩)
  | _ => exact .inl ⟨rfl, _, rfl⟩

/-- An undefined first byte faults or runs; it is never refused. -/
theorem undefinedFirstByte_ne_refused (op : Byte) (s aliased : State) (r : Refusal) :
    undefinedFirstByte op s aliased ≠ .refused r := by
  unfold undefinedFirstByte
  split <;> exact nofun

/-- A well-formed instruction is never refused. -/
theorem exec_ne_refused {i : Instr} (hwf : i.wellFormed = true) (s : State) (r : Refusal) : exec i s ≠ .refused r := by
  rcases exec_answers i s with ⟨-, t, h⟩ | ⟨-, op, -, t, h⟩ | ⟨hill, -⟩
  · rw [h]; exact nofun
  · rw [h]; exact undefinedFirstByte_ne_refused op s t r
  · rw [hwf] at hill; cases hill

/-- An instruction faults only as an undefined first byte under the fault policy. -/
theorem exec_fault {i : Instr} {s : State} {f : Fault} (h : exec i s = .fault f) :
    s.params.undoc = .fault ∧ ∃ op ∈ undefinedBytes, f = .undefinedOpcode op s.pc := by
  rcases exec_answers i s with ⟨-, t, ht⟩ | ⟨-, op, hop, t, ht⟩ | ⟨-, m, hm⟩
  · rw [ht] at h; cases h
  · rw [ht] at h
    obtain ⟨hpolicy, hf⟩ := undefinedFirstByte_fault h
    exact ⟨hpolicy, op, hop, hf⟩
  · rw [hm] at h; cases h

/-- Settles O21: the three answers of an instruction exclude each other, and only the third is this refusal. -/
theorem illFormedRefused : Obligations.IllFormedRefused := by
  refine ⟨fun i s hill => ?_, fun i s m h => ?_⟩
  · rcases exec_answers i s with ⟨hwf, -⟩ | ⟨hwf, -⟩ | ⟨-, hm⟩
    · rw [hwf] at hill; cases hill
    · rw [hwf] at hill; cases hill
    · exact hm
  · exact Bool.eq_false_iff.mpr fun hwf => exec_ne_refused hwf s _ h

/-! ### The interrupt state -/

theorem KeepsControl.refl (s : State) : KeepsControl s s := ⟨rfl, rfl, rfl, rfl, rfl⟩

theorem SameControl.goto {s u : State} (h : KeepsControl s u) (w : Word) : SameControl s (u.goto w) := ⟨h, rfl⟩

theorem sameControl_callTo (s : State) (len w : Word) : SameControl s (s.callTo len w) :=
  SameControl.goto (by simp [KeepsControl]) w

theorem sameControl_returnToCaller (s : State) : SameControl s s.returnToCaller :=
  SameControl.goto (by simp [KeepsControl]) _

theorem sameControl_jumpIf (s : State) (taken : Bool) (w : Word) : SameControl s (s.jumpIf taken w) := by
  rw [State.jumpIf_eq_goto]
  exact SameControl.goto (KeepsControl.refl s) _

theorem sameControl_callIf (s : State) (taken : Bool) (w : Word) : SameControl s (s.callIf taken w) := by
  cases taken
  · exact SameControl.goto (KeepsControl.refl s) _
  · exact sameControl_callTo s 3 w

theorem sameControl_returnIf (s : State) (taken : Bool) : SameControl s (s.returnIf taken) := by
  cases taken
  · exact SameControl.goto (KeepsControl.refl s) _
  · exact sameControl_returnToCaller s

/-- No instruction but HLT, DI and EI touches the control state, and each of the others clears `ei_pending` (R248). -/
theorem exec_sameControl {i : Instr} {s t : State} (h : exec i s = .next t) (hhlt : i ≠ .hlt) (hdi : i ≠ .di) (hei : i ≠ .ei) :
    SameControl s t := by
  cases i with
  | hlt => exact absurd rfl hhlt
  | di => exact absurd rfl hdi
  | ei => exact absurd rfl hei
  | ldax pair | stax pair | pushRp pair | popRp pair =>
    cases pair <;> cases h <;> exact SameControl.goto (by simp [KeepsControl]) _
  | call w | rst w => cases h; exact sameControl_callTo s _ _
  | jnz w | jz w | jnc w | jc w | jpo w | jpe w | jp w | jm w => cases h; exact sameControl_jumpIf s _ w
  | cnz w | cz w | cnc w | cc w | cpo w | cpe w | cp w | cm w => cases h; exact sameControl_callIf s _ w
  | ret => cases h; exact sameControl_returnToCaller s
  | rnz | rz | rnc | rc | rpo | rpe | rp | rm => cases h; exact sameControl_returnIf s _
  | undef08 | undef10 | undef18 | undef20 | undef28 | undef30 | undef38 | undefCB w =>
    obtain ⟨-, rfl⟩ := undefinedFirstByte_next h
    exact SameControl.goto (KeepsControl.refl s) _
  | undefD9 =>
    obtain ⟨-, rfl⟩ := undefinedFirstByte_next h
    exact sameControl_returnToCaller s
  | undefDD w | undefED w | undefFD w =>
    obtain ⟨-, rfl⟩ := undefinedFirstByte_next h
    exact sameControl_callTo s 3 w
  | _ =>
    cases h
    exact SameControl.goto (by simp [KeepsControl, State.onM_eq, State.storeM_eq, State.accumulate_eq, State.compare_eq,
      State.andA_eq, State.xorA_eq, State.orA_eq, State.rotated_eq, State.addHl_eq, State.ioWrite]) _

/-- Every instruction but EI clears `ei_pending`. -/
theorem exec_clears_eiPending {i : Instr} {s t : State} (h : exec i s = .next t) (hei : i ≠ .ei) : t.eiPending = false := by
  by_cases hhlt : i = .hlt
  · subst hhlt; cases h; rfl
  by_cases hdi : i = .di
  · subst hdi; cases h; rfl
  exact (exec_sameControl h hhlt hdi hei).2

/-- Settles O49: EI alone ends with `ei_pending` set, and every other instruction clears it. -/
theorem eiDelay : Obligations.EiDelay := by
  intro i s t h
  by_cases hei : i = .ei
  · subst hei
    cases h
    exact ⟨⟨fun _ => rfl, fun _ => rfl⟩, fun _ => ⟨rfl, rfl⟩, fun hne => absurd rfl hne⟩
  · have hclear := exec_clears_eiPending h hei
    refine ⟨⟨fun hset => ?_, fun hi => absurd hi hei⟩, fun hi => absurd hi hei, fun _ hinte hfault => ?_⟩
    · rw [hclear] at hset; cases hset
    · simp [State.acceptEnabled, hinte, hclear, hfault]

/-- Only EI turns INTE on. -/
theorem exec_inte_set {i : Instr} {s t : State} (h : exec i s = .next t) (hs : s.inte = false) (ht : t.inte = true) : i = .ei := by
  by_contra hei
  by_cases hhlt : i = .hlt
  · subst hhlt; cases h; simp [hs] at ht
  by_cases hdi : i = .di
  · subst hdi; cases h; cases ht
  obtain ⟨⟨hinte, -⟩, -⟩ := exec_sameControl h hhlt hdi hei
  rw [hinte, hs] at ht
  cases ht

/-- Only HLT halts the machine. -/
theorem exec_halted_set {i : Instr} {s t : State} (h : exec i s = .next t) (hs : s.halted = false) (ht : t.halted = true) :
    i = .hlt := by
  by_contra hhlt
  by_cases hdi : i = .di
  · subst hdi; cases h; simp [hs] at ht
  by_cases hei : i = .ei
  · subst hei; cases h; simp [hs] at ht
  obtain ⟨⟨-, hhalted, -⟩, -⟩ := exec_sameControl h hhlt hdi hei
  rw [hhalted, hs] at ht
  cases ht

/-! ### Where an instruction writes -/

theorem not_mem_pair {x a b : Word} : x ∉ [a, b] ↔ x ≠ a ∧ x ≠ b := by simp

/-- Two bytes stored leave every other byte as it was. -/
theorem State.store_store_byteAt_other (s : State) {a b x : Word} (v w : Byte) (ha : x ≠ a) (hb : x ≠ b) :
    ((s.store a v).store b w).byteAt x = s.byteAt x := by
  rw [State.store_byteAt_other _ _ _ _ hb, State.store_byteAt_other _ _ _ _ ha]

theorem State.callTo_byteAt_other (s : State) (len w : Word) {x : Word} (hx : x ∉ s.pushSlots) :
    (s.callTo len w).byteAt x = s.byteAt x := by
  obtain ⟨hhigh, hlow⟩ := not_mem_pair.mp hx
  rw [State.callTo, State.goto_byteAt, State.push16_byteAt_other _ _ _ hhigh hlow]

theorem State.callIf_byteAt_other (s : State) (cond : Cond) (w : Word) {x : Word} (hx : x ∉ s.callSlots cond) :
    (s.callIf (s.flags.holds cond) w).byteAt x = s.byteAt x := by
  unfold State.callSlots at hx
  unfold State.callIf
  split <;> rename_i hc
  · rw [if_pos hc] at hx
    exact s.callTo_byteAt_other 3 w hx
  · exact s.advance_byteAt 3 x

@[simp] theorem State.returnToCaller_byteAt (s : State) (x : Word) : s.returnToCaller.byteAt x = s.byteAt x := by
  simp [State.returnToCaller]

@[simp] theorem State.jumpIf_byteAt (s : State) (taken : Bool) (w x : Word) : (s.jumpIf taken w).byteAt x = s.byteAt x := by
  cases taken <;> rfl

@[simp] theorem State.returnIf_byteAt (s : State) (taken : Bool) (x : Word) : (s.returnIf taken).byteAt x = s.byteAt x := by
  cases taken
  · rfl
  · exact s.returnToCaller_byteAt x

@[simp] theorem State.accumulate_byteAt (s : State) (r : Alu) (x : Word) : (s.accumulate r).byteAt x = s.byteAt x := rfl
@[simp] theorem State.compare_byteAt (s : State) (r : Alu) (x : Word) : (s.compare r).byteAt x = s.byteAt x := rfl
@[simp] theorem State.andA_byteAt (s : State) (v : Byte) (x : Word) : (s.andA v).byteAt x = s.byteAt x := rfl
@[simp] theorem State.xorA_byteAt (s : State) (v : Byte) (x : Word) : (s.xorA v).byteAt x = s.byteAt x := rfl
@[simp] theorem State.orA_byteAt (s : State) (v : Byte) (x : Word) : (s.orA v).byteAt x = s.byteAt x := rfl
@[simp] theorem State.rotated_byteAt (s : State) (v : Byte) (cy : Bool) (x : Word) : (s.rotated v cy).byteAt x = s.byteAt x := rfl
@[simp] theorem State.addHl_byteAt (s : State) (w x : Word) : (s.addHl w).byteAt x = s.byteAt x := rfl
@[simp] theorem State.ioRead_byteAt (s : State) (port : Byte) (x : Word) : (s.ioRead port).2.byteAt x = s.byteAt x := by
  simp [State.byteAt]
@[simp] theorem State.ioWrite_byteAt (s : State) (port v : Byte) (x : Word) : (s.ioWrite port v).byteAt x = s.byteAt x := rfl

/-- An instruction that runs changes no byte outside the addresses it stores to. -/
theorem exec_byteAt_other {i : Instr} {s t : State} (h : exec i s = .next t) {x : Word} (hx : x ∉ storeAddresses i s) :
    t.byteAt x = s.byteAt x := by
  cases i with
  | movMR r | mviM b | sta w =>
    cases h
    exact State.store_byteAt_other s _ x _ (List.ne_of_not_mem_cons hx)
  | inrM | dcrM =>
    cases h
    exact (State.store_byteAt_other _ _ x _ (by simpa [State.hl, storeAddresses] using hx)).trans (s.load_byteAt _ x)
  | stax pair => cases pair <;> cases h <;> exact State.store_byteAt_other s _ x _ (List.ne_of_not_mem_cons hx)
  | shld w =>
    cases h
    obtain ⟨ha, hb⟩ := not_mem_pair.mp hx
    exact s.store_store_byteAt_other _ _ ha hb
  | xthl =>
    cases h
    obtain ⟨ha, hb⟩ := not_mem_pair.mp hx
    exact (State.store_store_byteAt_other _ _ _ ha hb).trans (s.load16_byteAt _ x)
  | pushRp pair =>
    obtain ⟨ha, hb⟩ := not_mem_pair.mp hx
    cases pair <;> cases h <;> exact s.push16_byteAt_other _ x ha hb
  | pushPsw =>
    obtain ⟨ha, hb⟩ := not_mem_pair.mp hx
    cases h
    exact s.push16_byteAt_other _ x ha hb
  | call w | rst n => cases h; exact s.callTo_byteAt_other _ _ hx
  | cnz w | cz w | cnc w | cc w | cpo w | cpe w | cp w | cm w => cases h; exact s.callIf_byteAt_other _ w hx
  | undefDD w | undefED w | undefFD w =>
    obtain ⟨-, rfl⟩ := undefinedFirstByte_next h
    exact s.callTo_byteAt_other 3 w hx
  | undef08 | undef10 | undef18 | undef20 | undef28 | undef30 | undef38 | undefCB w | undefD9 =>
    obtain ⟨-, rfl⟩ := undefinedFirstByte_next h
    simp
  | ldax pair | popRp pair => cases pair <;> cases h <;> simp
  | hlt | di | ei => cases h; rfl
  | _ =>
    cases h
    simp [State.onM_eq]

end Sys2Proof.Machine
end

section
/-! SUPPORT. Memory and the stack (spec/20_memory.md R56, R57; spec/41_transfer16.md R123): the canonical form, what a read and a
write do by the kind of the address, and a pop after a push. -/

namespace Sys2Proof.Machine

/-! ### The canonical form -/

theorem Memory.wf_cons {a : Nat} {v : Byte} {rest : Memory} :
    Memory.wf ((a, v) :: rest) = true ↔
      a < 2 ^ 16 ∧ v ≠ Config.unlistedByte ∧ rest.all (fun cell => decide (a < cell.1)) = true ∧ Memory.wf rest = true := by
  simp only [Memory.wf, Bool.and_eq_true, decide_eq_true_eq, bne_iff_ne, and_assoc]

theorem memGet_cons_self (a : Nat) (v : Byte) (rest : Memory) : memGet ((a, v) :: rest) a = v := by
  simp [memGet]

theorem memGet_cons_below {a x : Nat} (v : Byte) (rest : Memory) (h : x < a) : memGet ((a, v) :: rest) x = Config.unlistedByte := by
  simp [memGet, h]

theorem memGet_cons_above {a x : Nat} (v : Byte) (rest : Memory) (h : a < x) : memGet ((a, v) :: rest) x = memGet rest x := by
  simp [memGet, Nat.lt_asymm h, Nat.ne_of_gt h]

/-- Cells above `a` answer nothing at `a` or below. -/
theorem memGet_of_all_above_of_le {m : Memory} {a x : Nat} (h : m.all (fun cell => decide (a < cell.1)) = true) (hx : x ≤ a) :
    memGet m x = Config.unlistedByte := by
  refine memGet_of_all_above (List.all_eq_true.mpr fun cell hcell => ?_)
  have habove := of_decide_eq_true (List.all_eq_true.mp h cell hcell)
  exact decide_eq_true (Nat.lt_of_le_of_lt hx habove)

/-- Settles O3, from the laws of `memSet` at its own address and at another. -/
theorem memoryReadAfterWrite : Obligations.MemoryReadAfterWrite := by
  intro m a x v hwf ha
  refine ⟨?_, memSet_wf hwf ha⟩
  by_cases hx : x = a
  · rw [if_pos hx, hx, memGet_memSet_same]
  · rw [if_neg hx, memGet_memSet_other m v hx]

/-- A canonical memory differs from any memory that lists nothing at the address of its first cell. -/
theorem memGet_ne_of_first_cell {a : Nat} {v : Byte} {rest n : Memory} (hwf : Memory.wf ((a, v) :: rest) = true)
    (hn : memGet n a = Config.unlistedByte) : ∃ x < 2 ^ 16, memGet ((a, v) :: rest) x ≠ memGet n x := by
  obtain ⟨ha, hv, -, -⟩ := Memory.wf_cons.mp hwf
  exact ⟨a, ha, by rw [memGet_cons_self, hn]; exact hv⟩

/-- Settles O4, by induction on the first list: the first cells agree, and so do the reads of what follows them. -/
theorem memoryCanonical : Obligations.MemoryCanonical := by
  intro m
  induction m with
  | nil =>
    intro n _ hn hread
    cases n with
    | nil => rfl
    | cons cell rest =>
      obtain ⟨x, hx, hne⟩ := memGet_ne_of_first_cell (n := []) hn rfl
      exact absurd (hread x hx).symm hne
  | cons cell rest ih =>
    obtain ⟨a, v⟩ := cell
    intro n hm hn hread
    cases n with
    | nil =>
      obtain ⟨x, hx, hne⟩ := memGet_ne_of_first_cell (n := []) hm rfl
      exact absurd (hread x hx) hne
    | cons cell' rest' =>
      obtain ⟨b, w⟩ := cell'
      rcases Nat.lt_trichotomy a b with hab | rfl | hba
      · obtain ⟨x, hx, hne⟩ := memGet_ne_of_first_cell hm (memGet_cons_below w rest' hab)
        exact absurd (hread x hx) hne
      · obtain ⟨ha, -, habove, hrest⟩ := Memory.wf_cons.mp hm
        obtain ⟨-, -, habove', hrest'⟩ := Memory.wf_cons.mp hn
        have hvw : v = w := by simpa only [memGet_cons_self] using hread a ha
        have htails : ∀ x < 2 ^ 16, memGet rest x = memGet rest' x := by
          intro x hx
          rcases Nat.lt_or_ge a x with hax | hxa
          · simpa only [memGet_cons_above _ _ hax] using hread x hx
          · rw [memGet_of_all_above_of_le habove hxa, memGet_of_all_above_of_le habove' hxa]
        rw [hvw, ih rest' hrest hrest' htails]
      · obtain ⟨x, hx, hne⟩ := memGet_ne_of_first_cell hn (memGet_cons_below v rest hba)
        exact absurd (hread x hx).symm hne

/-! ### A read and a write by the kind of the address -/

/-- RAM and ROM answer with the stored byte and change nothing (R56). -/
theorem State.load_of_stored {s : State} {a : Word} (h : kindAt s.params a = .ram ∨ kindAt s.params a = .rom) :
    s.load a = (s.byteAt a, s) := by
  rcases h with h | h <;> simp only [State.load, h]

/-- With no region in MEMMAP every address is RAM (R62). -/
theorem kindAt_of_memMap_nil {p : Config.Params} (h : p.memMap = []) (a : Word) : kindAt p a = .ram := by
  simp only [kindAt, h, List.find?_nil]

/-- Settles O1, kind by kind. -/
theorem loadByKind : Obligations.LoadByKind := by
  intro s a
  refine ⟨State.load_of_stored, ?unpopulated, ?device, ?allRam, rfl⟩
  case unpopulated => intro h; simp only [State.load, h]
  case device => intro h; simp only [State.load, h]
  case allRam => exact fun h => State.load_of_stored (.inl (kindAt_of_memMap_nil h a))

/-- What a store leaves at its own address: RAM takes the byte, any other kind keeps its own (R57). -/
theorem State.store_byteAt_self (s : State) (a : Word) (v : Byte) :
    (s.store a v).byteAt a = if kindAt s.params a = .ram then v else s.byteAt a := by
  split
  · rename_i hram; exact s.store_byteAt_same a v hram
  · rename_i hram; simp only [State.byteAt, s.store_mem_of_not_ram a v hram]

/-- Only a device records the store (R57). -/
theorem State.store_history (s : State) (a : Word) (v : Byte) : (s.store a v).history = s.history ++ storeEvent s a v := by
  unfold State.store storeEvent
  cases kindAt s.params a <;> simp

theorem storesByte_store (s : State) (a : Word) (v : Byte) : StoresByte s (s.store a v) a v :=
  ⟨fun b hb => s.store_byteAt_other a b v hb, s.store_byteAt_self a v, s.store_history a v, s.store_inputs a v, s.store_draws a v⟩

theorem keepsControl_store (s : State) (a : Word) (v : Byte) : KeepsControl s (s.store a v) := by
  simp [KeepsControl]

/-- Settles O2: a store is one `StoresByte`, and leaves every field but memory and history. -/
theorem storeByKind : Obligations.StoreByKind := by
  intro s a v
  exact ⟨storesByte_store s a v, s.store_regs a v, s.store_flags a v, s.store_sp a v, s.store_pc a v, keepsControl_store s a v,
    s.store_eiPending a v, fun h => s.store_byteAt_same a v (kindAt_of_memMap_nil h a)⟩

/-- Two stores at different addresses: neither hides the other. -/
theorem storesTwo_store_store (s : State) {a b : Word} (v w : Byte) (hab : a ≠ b) :
    StoresTwo s ((s.store a v).store b w) a v b w := by
  refine ⟨fun x ha hb => s.store_store_byteAt_other v w ha hb, ?first, ?second, ?history, by simp, by simp⟩
  case first => rw [State.store_byteAt_other _ _ _ _ hab, State.store_byteAt_self]
  case second => rw [State.store_byteAt_self, State.store_params, State.store_byteAt_other _ _ _ _ hab.symm]
  case history =>
    have hevent : storeEvent (s.store a v) b w = storeEvent s b w := by simp only [storeEvent, State.store_params]
    rw [State.store_history, State.store_history, hevent]

/-! ### The stack -/

theorem Word.sub_one_ne_sub_two (w : Word) : w - 1 ≠ w - 2 := by bv_omega

theorem Word.add_one_ne_self (w : Word) : w + 1 ≠ w := by bv_omega

/-- A push stores the high byte at SP - 1 and the low byte at SP - 2 (R123). -/
theorem storesTwo_push16 (s : State) (w : Word) :
    StoresTwo s (s.push16 w) (s.sp - 1) (hiByte w) (s.sp - 2) (loByte w) :=
  storesTwo_store_store s (hiByte w) (loByte w) (Word.sub_one_ne_sub_two s.sp)

/-- A read of two bytes of RAM is the two bytes stored. -/
theorem State.load16_of_stored {s : State} {a : Word} (hlow : kindAt s.params a = .ram ∨ kindAt s.params a = .rom)
    (hhigh : kindAt s.params (a + 1) = .ram ∨ kindAt s.params (a + 1) = .rom) :
    s.load16 a = (joinBytes (s.byteAt (a + 1)) (s.byteAt a), s) := by
  simp only [State.load16, State.load_of_stored hlow, State.load_of_stored hhigh]

/-- A pop right after a push gives the word pushed and restores SP; what the push wrote stays below it. -/
theorem State.pop16_push16 {s : State} (w : Word) (hhigh : kindAt s.params (s.sp - 1) = .ram)
    (hlow : kindAt s.params (s.sp - 2) = .ram) : (s.push16 w).pop16 = (w, (s.push16 w).withSp s.sp) := by
  obtain ⟨-, hbyteHigh, hbyteLow, -⟩ := storesTwo_push16 s w
  rw [if_pos hhigh] at hbyteHigh
  rw [if_pos hlow] at hbyteLow
  have hnext : s.sp - 2 + 1 = s.sp - 1 := by bv_omega
  have hback : s.sp - 2 + 2 = s.sp := by bv_omega
  have hload : (s.push16 w).load16 (s.sp - 2) = (w, s.push16 w) := by
    rw [State.load16_of_stored (by rw [State.push16_params]; exact .inl hlow)
      (by rw [State.push16_params, hnext]; exact .inl hhigh), hnext, hbyteHigh, hbyteLow, joinBytes_hi_lo]
  simp only [State.pop16, State.push16_sp, hload, hback]

/-- Settles O5: the pop is that of `pop16_push16`, the bytes are those of `storesTwo_push16`. -/
theorem pushThenPop : Obligations.PushThenPop := by
  intro s w hhigh hlow
  have hpop := State.pop16_push16 w hhigh hlow
  obtain ⟨hother, hbyteHigh, hbyteLow, -⟩ := storesTwo_push16 s w
  rw [if_pos hhigh] at hbyteHigh
  rw [if_pos hlow] at hbyteLow
  exact ⟨congrArg Prod.fst hpop, congrArg (fun r => r.2.sp) hpop, s.push16_sp w, hbyteHigh, hbyteLow, hother,
    congrArg Prod.fst hpop⟩

end Sys2Proof.Machine
end

section
/-! SUPPORT. The step (spec/60_exceptions.md R260 to R275, spec/70_reset_and_hazards.md R290, R295): what a step that answers a next
state has done, and what every step keeps. -/

namespace Sys2Proof.Machine

/-! ### The bytes fetched -/

@[simp] theorem State.fetch_regs (s : State) : s.fetch.2.regs = s.regs := by
  unfold State.fetch; dsimp only; split <;> simp
@[simp] theorem State.fetch_flags (s : State) : s.fetch.2.flags = s.flags := by
  unfold State.fetch; dsimp only; split <;> simp
@[simp] theorem State.fetch_sp (s : State) : s.fetch.2.sp = s.sp := by
  unfold State.fetch; dsimp only; split <;> simp
@[simp] theorem State.fetch_pc (s : State) : s.fetch.2.pc = s.pc := by
  unfold State.fetch; dsimp only; split <;> simp
@[simp] theorem State.fetch_inte (s : State) : s.fetch.2.inte = s.inte := by
  unfold State.fetch; dsimp only; split <;> simp
@[simp] theorem State.fetch_halted (s : State) : s.fetch.2.halted = s.halted := by
  unfold State.fetch; dsimp only; split <;> simp
@[simp] theorem State.fetch_params (s : State) : s.fetch.2.params = s.params := (Keeps.fetch s).params
@[simp] theorem State.fetch_byteAt (s : State) (x : Word) : s.fetch.2.byteAt x = s.byteAt x := by
  unfold State.fetch; dsimp only; split <;> simp

theorem opLength_eq_one {op : Byte} (hthree : opLength op ≠ 3) (htwo : opLength op ≠ 2) : opLength op = 1 := by
  obtain ⟨hpos, hmax⟩ := (everyFirstByteDecodes.2 op 0 0 []).2.2
  omega

/-- As many bytes are fetched as the first of them says. -/
theorem State.fetch_bytes (s : State) :
    ∃ operands, s.fetch.1 = (s.load s.pc).1 :: operands ∧ operands.length + 1 = opLength (s.load s.pc).1 := by
  unfold State.fetch
  dsimp only
  split
  · rename_i hlen; exact ⟨_, rfl, hlen.symm⟩
  · rename_i hlen; exact ⟨_, rfl, hlen.symm⟩
  · rename_i hthree htwo; exact ⟨_, rfl, (opLength_eq_one hthree htwo).symm⟩

/-- The bytes fetched always decode. -/
theorem State.fetch_decodes (s : State) : ∃ i rest, decode s.fetch.1 = .ok (i, rest) := by
  obtain ⟨operands, hbytes, hlen⟩ := s.fetch_bytes
  obtain ⟨r, hrow⟩ := rowOf_isSome (s.load s.pc).1
  obtain ⟨i, hbuild⟩ := rowOf_builds hrow (operands.getD 0 0) (operands.getD 1 0)
  rw [hbytes]
  exact ⟨i, _, decode_of_row hrow (by rw [hlen, opLength_of_rowOf hrow]) hbuild⟩

/-- From addresses that answer with the stored byte, a fetch reads the bytes stored and changes nothing. -/
theorem State.fetch_of_storedAt {s : State} (h : s.storedAt s.pc = true) :
    s.fetch = ((s.bytesAt s.pc).take (opLength (s.byteAt s.pc)), s) := by
  have hload : ∀ a, answersStored (kindAt s.params a) = true → s.load a = (s.byteAt a, s) := by
    intro a ha
    refine State.load_of_stored ?_
    cases hkind : kindAt s.params a with
    | ram => exact .inl rfl
    | rom => exact .inr rfl
    | unpopulated | device => rw [hkind] at ha; cases ha
  simp only [State.storedAt, Bool.and_eq_true, and_assoc] at h
  obtain ⟨h0, h1, h2⟩ := h
  unfold State.fetch
  simp only [hload _ h0, hload _ h1, hload _ h2]
  split
  · rename_i hlen; rw [hlen]; rfl
  · rename_i hlen; rw [hlen]; rfl
  · rename_i hthree htwo
    rw [opLength_eq_one hthree htwo]; rfl

/-- A read from a fetch on decodes to what the bytes in memory decode to: the instruction takes no more bytes than are fetched. -/
theorem State.decode_fetch_of_storedAt {s : State} {i : Instr} {rest : List Byte} (h : s.storedAt s.pc = true)
    (hdecode : decode (s.bytesAt s.pc) = .ok (i, rest)) : decode s.fetch.1 = .ok (i, []) := by
  obtain ⟨hwf, hbytes⟩ := encodeDecode _ i rest hdecode
  have hfetched : s.fetch.1 = encode i ++ [] := by
    rw [State.fetch_of_storedAt h, hbytes, ← encode_length_of_decode hdecode, List.take_left, List.append_nil]
  rw [hfetched]
  exact decodeEncode i [] hwf

/-! ### The cases of a step that answers a next state -/

/-- The boundary offers nothing, or a request that is not accepted. -/
def State.RunsOn (s : State) : Prop :=
  s.takeOffer.1 = .quiet ∨ ∃ n, s.takeOffer.1 = .request n ∧ s.acceptEnabled = false

theorem instrStep_of_decode {s : State} {i : Instr} {rest : List Byte} (hf : s.faulted = none) (hh : s.halted = false)
    (hdecode : decode s.fetch.1 = .ok (i, rest)) : instrStep s = exec i s.fetch.2 := by
  simp [instrStep, hf, hh, hdecode]

theorem instrStep_of_faulted {s : State} {f : Fault} (hf : s.faulted = some f) : instrStep s = .fault f := by
  simp only [instrStep, hf]

theorem instrStep_of_halted {s : State} (hf : s.faulted = none) (hh : s.halted = true) : instrStep s = .next s := by
  simp [instrStep, hf, hh]

/-- A next state comes from a reset, an interrupt entry, a halted machine or an instruction. -/
theorem step_next_cases {s t : State} (h : step s = .next t) :
    (s.takeOffer.1 = .reset ∧ t = s.takeOffer.2.resetRunning) ∨
    (∃ n, s.takeOffer.1 = .request n ∧ s.acceptEnabled = true ∧ t = s.takeOffer.2.acceptInterrupt n) ∨
    (s.RunsOn ∧ s.faulted = none ∧ s.halted = true ∧ t = s.takeOffer.2) ∨
    (s.RunsOn ∧ s.faulted = none ∧ s.halted = false ∧
      ∃ i rest, decode s.takeOffer.2.fetch.1 = .ok (i, rest) ∧ exec i s.takeOffer.2.fetch.2 = .next t) := by
  rcases step_cases s with ⟨ho, hs⟩ | ⟨n, ho, ha, hs⟩ | ⟨hrun, hs⟩
  · rw [hs] at h; cases h; exact .inl ⟨ho, rfl⟩
  · rw [hs] at h; cases h; exact .inr (.inl ⟨n, ho, ha, rfl⟩)
  · rw [hs] at h
    rcases instrStep_cases s.takeOffer.2 with ⟨f, -, hi⟩ | ⟨hf, hh, hi⟩ | ⟨hf, hh, i, rest, hd, hi⟩ | ⟨-, -, -, hi⟩
    · rw [hi] at h; cases h
    · rw [hi] at h; cases h
      exact .inr (.inr (.inl ⟨hrun, by simpa using hf, by simpa using hh, rfl⟩))
    · exact .inr (.inr (.inr ⟨hrun, by simpa using hf, by simpa using hh, i, rest, hd, hi ▸ h⟩))
    · rw [hi] at h; cases h

theorem exec_fetch_keeps {s t : State} {i : Instr} (h : exec i s.fetch.2 = .next t) : Keeps s t :=
  (Keeps.fetch s).trans (exec_keeps i h)

/-- But for a reset, a step does to the state whose offer is taken no more than `Keeps` allows. -/
theorem step_keeps {s t : State} (h : step s = .next t) :
    (s.takeOffer.1 = .reset ∧ t = s.takeOffer.2.resetRunning) ∨ Keeps s.takeOffer.2 t := by
  rcases step_next_cases h with hreset | ⟨n, -, -, rfl⟩ | ⟨-, -, -, rfl⟩ | ⟨-, -, -, i, rest, -, hexec⟩
  · exact .inl hreset
  · exact .inr (Keeps.acceptInterrupt _ n)
  · exact .inr (Keeps.refl _)
  · exact .inr (exec_fetch_keeps hexec)

/-! ### What every step keeps -/

/-- Settles O56: a reset writes none of these fields but the counter of free values, any other step is one of `Keeps`. -/
theorem stepKeepsRecord : Obligations.StepKeepsRecord := by
  intro s t h
  rcases step_keeps h with ⟨-, rfl⟩ | hkeeps
  · exact ⟨⟨[], by simp [State.resetRunning]⟩, s.takeOffer_params, Nat.le_succ_of_le s.takeOffer_draws, s.takeOffer_offers,
      ⟨0, s.takeOffer_inputs⟩⟩
  · obtain ⟨hparams, hoffers, -, hhistory, hdraws, hinputs, -, -⟩ := hkeeps
    rw [State.takeOffer_params] at hparams
    rw [State.takeOffer_offers] at hoffers
    rw [State.takeOffer_history] at hhistory
    rw [State.takeOffer_inputs] at hinputs
    exact ⟨hhistory, hparams, s.takeOffer_draws.trans hdraws, hoffers, hinputs⟩

/-- An instruction keeps the order of the interrupt state: EI sets both bits, HLT halts with `ei_pending` clear. -/
theorem exec_interruptState {i : Instr} {s t : State} (h : exec i s = .next t) (hs : s.halted = false) :
    (t.eiPending = true → t.inte = true) ∧ (t.halted = true → t.eiPending = false) := by
  obtain ⟨hei, hset, -⟩ := eiDelay i s t h
  refine ⟨fun hpending => (hset (hei.mp hpending)).1, fun hhalted => ?_⟩
  have hhlt := exec_halted_set h hs hhalted
  exact Bool.eq_false_iff.mpr fun hpending => by
    have hi := hei.mp hpending
    rw [hhlt] at hi
    cases hi

/-- Settles O55: memory and parameters are a matter of `Keeps`, the interrupt state of the four ways to a next state. -/
theorem stepKeepsInv : Obligations.StepKeepsInv := by
  intro s t hinv h
  obtain ⟨hwf, hpending, hhalted, hlegal⟩ := hinv
  have hparams : t.params = s.params := (stepKeepsRecord s t h).2.1
  have hmem : Memory.wf t.mem = true := by
    rcases step_keeps h with ⟨-, rfl⟩ | hkeeps
    · simpa [State.resetRunning] using hwf
    · exact hkeeps.wf (by simpa using hwf)
  suffices hstate : (t.eiPending = true → t.inte = true) ∧ (t.halted = true → t.eiPending = false) from
    ⟨hmem, hstate.1, hstate.2, by rw [hparams]; exact hlegal⟩
  rcases step_next_cases h with ⟨-, rfl⟩ | ⟨n, -, -, rfl⟩ | ⟨-, -, -, rfl⟩ | ⟨-, -, hrunning, i, rest, -, hexec⟩
  · revert hlegal
    simp only [State.resetRunning, State.takeOffer_params, resetStateLegal]
    cases s.params.resetState.eiPending <;> cases s.params.resetState.inte <;> cases s.params.resetState.halted <;> simp
  · exact ⟨nofun, fun _ => rfl⟩
  · simpa using And.intro hpending hhalted
  · exact exec_interruptState hexec (by simpa using hrunning)

/-- The addresses stored to depend on registers, flags and SP only. -/
theorem storeAddresses_congr {s t : State} (hregs : t.regs = s.regs) (hflags : t.flags = s.flags) (hsp : t.sp = s.sp) (i : Instr) :
    storeAddresses i t = storeAddresses i s := by
  have hhl : t.hl = s.hl := by simp only [State.hl, hregs]
  have hslots : t.pushSlots = s.pushSlots := by simp only [State.pushSlots, hsp]
  have hcall : ∀ cond, t.callSlots cond = s.callSlots cond := fun cond => by simp only [State.callSlots, hflags, hslots]
  cases i <;> simp only [storeAddresses, hhl, hslots, hcall, hsp, State.getPair_congr hregs hsp]

theorem State.acceptInterrupt_byteAt_other (s : State) (n : BitVec 3) {x : Word} (hx : x ∉ s.pushSlots) :
    (s.acceptInterrupt n).byteAt x = s.byteAt x := by
  obtain ⟨hhigh, hlow⟩ := not_mem_pair.mp hx
  exact State.push16_byteAt_other { s with inte := false, halted := false } s.pc x hhigh hlow

/-- Settles O57: each way to a next state writes at the addresses `stepStores` names, and `Keeps` lets only RAM be written. -/
theorem onlyRamChanges : Obligations.OnlyRamChanges := by
  refine ⟨fun i s t h x hx => exec_byteAt_other h hx, fun s t h => ⟨fun x hx => ?_, fun a ha => ?_⟩⟩
  · rw [← s.takeOffer_byteAt x]
    rcases step_next_cases h with ⟨-, rfl⟩ | ⟨n, ho, haccept, rfl⟩ | ⟨-, -, -, rfl⟩ | ⟨hrun, hfault, hrunning, i, rest, hd, hexec⟩
    · rfl
    · refine State.acceptInterrupt_byteAt_other _ n ?_
      simpa [stepStores, ho, haccept, State.pushSlots] using hx
    · rfl
    · have hinstr : instrStores s.takeOffer.2 = storeAddresses i s.takeOffer.2 := by
        simp [instrStores, hfault, hrunning, hd]
      have hstores : stepStores s = instrStores s.takeOffer.2 := by
        rcases hrun with ho | ⟨n, ho, haccept⟩
        · simp only [stepStores, ho]
        · simp [stepStores, ho, haccept]
      rw [hstores, hinstr, ← storeAddresses_congr (State.fetch_regs _) (State.fetch_flags _) (State.fetch_sp _)] at hx
      rw [exec_byteAt_other hexec hx, State.fetch_byteAt]
  · rw [← s.takeOffer_byteAt a]
    rcases step_keeps h with ⟨-, rfl⟩ | hkeeps
    · rfl
    · exact hkeeps.ram a (by rwa [State.takeOffer_params])

/-- Settles O58: the bytes fetched decode to a well-formed instruction, which is not refused and faults only as an undefined byte. -/
theorem stepStopsOnlyAtUndefined : Obligations.StepStopsOnlyAtUndefined := by
  intro s
  rcases step_cases s with ⟨-, hs⟩ | ⟨n, -, -, hs⟩ | ⟨-, hs⟩
  · rw [hs]; exact ⟨nofun, fun _ => nofun⟩
  · rw [hs]; exact ⟨nofun, fun _ => nofun⟩
  · rw [hs]
    rcases instrStep_cases s.takeOffer.2 with ⟨f, hf, hi⟩ | ⟨-, -, hi⟩ | ⟨-, hh, i, rest, hd, hi⟩ | ⟨-, -, ⟨e, he⟩, -⟩
    · rw [hi]
      refine ⟨nofun, fun hnone => ?_⟩
      rw [State.takeOffer_faulted, hnone] at hf
      cases hf
    · rw [hi]; exact ⟨nofun, fun _ => nofun⟩
    · rw [hi]
      refine ⟨exec_ne_refused (encodeDecode _ i rest hd).1 _, fun _ f hfault => ?_⟩
      obtain ⟨hpolicy, op, hop, hf⟩ := exec_fault hfault
      exact ⟨by simpa using hpolicy, by simpa using hh, op, hop, by simpa using hf⟩
    · obtain ⟨i, rest, hd⟩ := s.takeOffer.2.fetch_decodes
      rw [he] at hd
      cases hd

/-- Settles O59: an interrupt entry clears both bits, and of the instructions only EI sets INTE and only HLT halts. -/
theorem inteOnlyByEi : Obligations.InteOnlyByEi := by
  intro s t h hreset
  rcases step_next_cases h with ⟨ho, -⟩ | ⟨n, -, -, rfl⟩ | ⟨-, -, hhalted, rfl⟩ | ⟨-, -, -, i, rest, hd, hexec⟩
  · exact absurd ho hreset
  · refine ⟨fun _ hset => ?_, fun _ hset => ?_⟩ <;> simp [State.acceptInterrupt] at hset
  · refine ⟨fun hclear hset => ?_, fun hclear _ => ?_⟩
    · rw [State.takeOffer_inte, hclear] at hset; cases hset
    · rw [hhalted] at hclear; cases hclear
  · refine ⟨fun hclear hset => ⟨rest, ?_⟩, fun hclear hset => ⟨rest, ?_⟩⟩
    · rw [hd, exec_inte_set hexec (by simpa using hclear) hset]
    · rw [hd, exec_halted_set hexec (by simpa using hclear) hset]

end Sys2Proof.Machine
end

section
/-! SUPPORT. Single steps (spec/60_exceptions.md, spec/70_reset_and_hazards.md): an instruction, a fault, an interrupt entry, a reset,
a halted machine, and coming back from a call or an interrupt. -/

namespace Sys2Proof.Machine

/-! ### Instruction and fault -/

theorem State.takeOffer_storedAt (s : State) (a : Word) : s.takeOffer.2.storedAt a = s.storedAt a := by
  simp [State.storedAt]

theorem State.takeOffer_bytesAt (s : State) (a : Word) : s.takeOffer.2.bytesAt a = s.bytesAt a := by
  simp [State.bytesAt]

/-- Settles O45: the step is the transition `(instr)`, and bytes in RAM or ROM are fetched as they stand. -/
theorem stepRunsDecoded : Obligations.StepRunsDecoded := by
  intro s i rest hf hh hrun
  have hstep : ∀ rest', decode s.takeOffer.2.fetch.1 = .ok (i, rest') → step s = exec i s.takeOffer.2.fetch.2 := by
    intro rest' hdecode
    rw [step_of_not_accepted hrun, instrStep_of_decode (by simpa using hf) (by simpa using hh) hdecode]
  refine ⟨fun hstored hdecode => ?_, hstep rest⟩
  have hstored' : s.takeOffer.2.storedAt s.takeOffer.2.pc = true := by
    rwa [State.takeOffer_storedAt, State.takeOffer_pc]
  have hdecode' : decode (s.takeOffer.2.bytesAt s.takeOffer.2.pc) = .ok (i, rest) := by
    rwa [State.takeOffer_bytesAt, State.takeOffer_pc]
  rw [hstep [] (State.decode_fetch_of_storedAt hstored' hdecode'), State.fetch_of_storedAt hstored']

/-- The instruction of an undefined first byte is that byte's constructor. -/
theorem exec_of_undefined_byte {op : Byte} {tail : List Byte} {i : Instr} {rest : List Byte} (hop : op ∈ undefinedBytes)
    (h : decode (op :: tail) = .ok (i, rest)) (s : State) : ∃ t, exec i s = undefinedFirstByte op s t := by
  obtain ⟨_, _, r, hbytes, hrow, -, hbuild, -⟩ := row_of_decode h
  cases hbytes
  simp only [undefinedBytes, List.mem_cons, List.not_mem_nil, or_false] at hop
  rcases hop with rfl | rfl | rfl | rfl | rfl | rfl | rfl | rfl | rfl | rfl | rfl | rfl <;> cases hrow <;> cases hbuild <;>
    exact ⟨_, rfl⟩

/-- The transition `(instr)` at an undefined first byte under the fault policy. -/
theorem instrStep_of_undefined_byte {s : State} (hf : s.faulted = none) (hh : s.halted = false) (hpolicy : s.params.undoc = .fault)
    (hop : (s.load s.pc).1 ∈ undefinedBytes) : instrStep s = .fault (.undefinedOpcode (s.load s.pc).1 s.pc) := by
  obtain ⟨i, rest, hdecode⟩ := s.fetch_decodes
  obtain ⟨operands, hbytes, -⟩ := s.fetch_bytes
  obtain ⟨t, hexec⟩ := exec_of_undefined_byte hop (hbytes ▸ hdecode) s.fetch.2
  rw [instrStep_of_decode hf hh hdecode, hexec]
  simp only [undefinedFirstByte, State.fetch_params, State.fetch_pc, hpolicy]

theorem State.transition_of_next {s t : State} (h : step s = .next t) : s.transition = t := by
  simp only [State.transition, h]

theorem State.transition_of_fault {s : State} {f : Fault} (h : step s = .fault f) (hf : s.faulted = none) :
    s.transition = s.takeOffer.2.markFault f := by
  simp only [State.transition, h, hf]

/-- A configuration marked faulted repeats its fault until a reset, and lets the offers pass (R275). -/
theorem step_of_faulted {s : State} {f : Fault} (hf : s.faulted = some f) (hreset : s.takeOffer.1 ≠ .reset) :
    step s = .fault f ∧ s.transition = s.takeOffer.2 := by
  have hstep : step s = .fault f := by
    rcases step_cases s with ⟨ho, -⟩ | ⟨n, -, haccept, -⟩ | ⟨-, hs⟩
    · exact absurd ho hreset
    · simp [State.acceptEnabled, hf] at haccept
    · rw [hs, instrStep_of_faulted (by simpa using hf)]
  exact ⟨hstep, by simp only [State.transition, hstep, hf]⟩

/-- Settles O46: the fault is that of the byte fetched, the mark is set on the state after that one read, and a marked machine
repeats it. -/
theorem stepFaultsAtUndefinedByte : Obligations.StepFaultsAtUndefinedByte := by
  intro s hf hh hrun hpolicy op hop
  have hstep : step s = .fault (.undefinedOpcode op s.pc) := by
    rw [step_of_not_accepted hrun, instrStep_of_undefined_byte (by simpa using hf) (by simpa using hh) (by simpa using hpolicy)
      (by simpa using hop), State.takeOffer_pc]
  have hmark : s.transition = { (s.takeOffer.2.load s.pc).2 with faulted := some (.undefinedOpcode op s.pc) } := by
    rw [State.transition_of_fault hstep hf, State.markFault, State.takeOffer_pc]
  refine ⟨hstep, hmark, fun hkind => ?_, step_of_faulted (by rw [hmark])⟩
  have hload : s.takeOffer.2.load s.pc = (s.byteAt s.pc, s.takeOffer.2) := by
    rw [State.load_of_stored (by rwa [State.takeOffer_params]), State.takeOffer_byteAt]
  exact ⟨congrArg Prod.fst hload, by rw [hmark, hload]⟩

/-! ### Interrupts -/

theorem restartAddress_eq (n : BitVec 3) : restartAddress n = BitVec.ofNat 16 (8 * n.toNat) := by
  revert n; decide

/-- With INTE set, no EI just before and no fault, a request is accepted (R266). -/
theorem step_of_accepted {s : State} {n : BitVec 3} (ho : s.takeOffer.1 = .request n) (hinte : s.inte = true)
    (hpending : s.eiPending = false) (hf : s.faulted = none) : step s = .next (s.takeOffer.2.acceptInterrupt n) := by
  simp [step, ho, State.acceptEnabled, hinte, hpending, hf]

/-- Interrupt entry pushes PC as it stands (R267). -/
theorem storesTwo_acceptInterrupt (s : State) (n : BitVec 3) :
    StoresTwo s (s.acceptInterrupt n) (s.sp - 1) (hiByte s.pc) (s.sp - 2) (loByte s.pc) :=
  storesTwo_push16 { s with inte := false, halted := false } s.pc

/-- Settles O47: the entry is a push of PC and a jump, on the state whose offer is taken. -/
theorem interruptEntry : Obligations.InterruptEntry := by
  intro s n ho hinte hpending hf
  have hstores := storesTwo_acceptInterrupt s.takeOffer.2 n
  rw [State.takeOffer_sp, State.takeOffer_pc] at hstores
  refine ⟨_, step_of_accepted ho hinte hpending hf, hstores, ?_⟩
  simp [State.acceptInterrupt, restartAddress_eq, hf]

/-- Where nothing is accepted and no reset comes, the machine runs on. -/
theorem State.runsOn_of_not_enabled {s : State} (hdisabled : s.acceptEnabled = false) (hreset : s.takeOffer.1 ≠ .reset) :
    s.RunsOn := by
  cases ho : s.takeOffer.1 with
  | quiet => exact .inl ho
  | request n => exact .inr ⟨n, ho, hdisabled⟩
  | reset => exact absurd ho hreset

/-- Settles O48: with acceptance disabled, the step is the transition `(instr)` on the state without the offer, either way. -/
theorem requestNotAccepted : Obligations.RequestNotAccepted := by
  intro s hreset hwhy
  have hdisabled : s.acceptEnabled = false := by
    rcases hwhy with h | h | h
    · simp [State.acceptEnabled, h]
    · simp [State.acceptEnabled, h]
    · simp [State.acceptEnabled, Option.isNone_eq_false_iff, Option.isSome_iff_ne_none, h]
  have hquiet : step { s with offers := .quiet :: s.offers.tail } = instrStep { s with offers := s.offers.tail } :=
    step_of_not_accepted (.inl rfl)
  rw [step_of_not_accepted (State.runsOn_of_not_enabled hdisabled hreset), State.takeOffer_of_not_enabled hdisabled, hquiet]

/-! ### Coming back -/

/-- A read does not look at PC. -/
theorem State.load_goto (s : State) (w a : Word) : (s.goto w).load a = ((s.load a).1, (s.load a).2.goto w) := by
  have hdraw : (s.goto w).draw = (s.draw.1, s.draw.2.goto w) := by
    unfold State.draw
    cases hin : s.inputs <;> simp only [State.goto_inputs, hin] <;> rfl
  unfold State.load
  rw [State.goto_params]
  cases kindAt s.params a <;> simp only [hdraw] <;> rfl

/-- A pop does not look at PC. -/
theorem State.pop16_goto (s : State) (w : Word) : (s.goto w).pop16 = (s.pop16.1, s.pop16.2.goto w) := by
  simp only [State.pop16, State.load16, State.goto_sp, State.load_goto]
  rfl

/-- RET does not look at PC. -/
theorem State.returnToCaller_goto (s : State) (w : Word) : (s.goto w).returnToCaller = s.returnToCaller := by
  rw [State.returnToCaller, State.pop16_goto]
  rfl

/-- With RAM under the stack, RET after a push goes to the word pushed and restores SP. -/
theorem State.returnToCaller_push16 {s : State} (v target : Word) (hhigh : kindAt s.params (s.sp - 1) = .ram)
    (hlow : kindAt s.params (s.sp - 2) = .ram) :
    ((s.push16 v).goto target).returnToCaller = ((s.push16 v).withSp s.sp).goto v := by
  rw [State.returnToCaller_goto, State.returnToCaller, State.pop16_push16 v hhigh hlow]

/-- A push to RAM is no event. -/
theorem State.push16_history {s : State} (w : Word) (hhigh : kindAt s.params (s.sp - 1) = .ram)
    (hlow : kindAt s.params (s.sp - 2) = .ram) : (s.push16 w).history = s.history := by
  obtain ⟨-, -, -, hhistory, -, -⟩ := storesTwo_push16 s w
  rw [hhistory]
  simp only [storeEvent, hhigh, hlow, reduceCtorEq, if_false, List.append_nil]

/-- What an interrupt entry clears before it pushes PC. -/
def State.interruptsOff (s : State) : State := { s with inte := false, halted := false }

theorem State.acceptInterrupt_eq (s : State) (n : BitVec 3) :
    s.acceptInterrupt n = (s.interruptsOff.push16 s.pc).goto (entryAddress s.params n) := rfl

/-- RET after an interrupt entry undoes the push and the jump; INTE and the halt stay clear. -/
theorem State.returnToCaller_acceptInterrupt {s u : State} (n : BitVec 3) (hhigh : kindAt s.params (s.sp - 1) = .ram)
    (hlow : kindAt s.params (s.sp - 2) = .ram) (hu : u = (s.acceptInterrupt n).returnToCaller) :
    u.pc = s.pc ∧ u.sp = s.sp ∧ u.regs = s.regs ∧ u.flags = s.flags ∧ u.inte = false ∧ u.halted = false ∧ SameEnvironment s u ∧
      ∀ a : Word, a ≠ s.sp - 1 → a ≠ s.sp - 2 → u.byteAt a = s.byteAt a := by
  rw [State.acceptInterrupt_eq, State.returnToCaller_push16 (s := s.interruptsOff) _ _ hhigh hlow] at hu
  have henv : SameEnvironment s (s.interruptsOff.push16 s.pc) :=
    ⟨State.push16_history (s := s.interruptsOff) _ hhigh hlow, State.push16_inputs .., State.push16_draws ..⟩
  subst hu
  exact ⟨rfl, rfl, State.push16_regs .., State.push16_flags .., State.push16_inte .., State.push16_halted .., henv,
    fun a ha hb => s.interruptsOff.push16_byteAt_other _ a ha hb⟩

/-- Settles O50: the entry is on the state whose offer is taken, and that state has the old PC, SP, registers and memory. -/
theorem interruptThenReturn : Obligations.InterruptThenReturn := by
  intro s n ho hinte hpending hf hhigh hlow
  have hback := State.returnToCaller_acceptInterrupt (s := s.takeOffer.2) n (by rwa [State.takeOffer_params, State.takeOffer_sp])
    (by rwa [State.takeOffer_params, State.takeOffer_sp]) rfl
  simp only [State.takeOffer_pc, State.takeOffer_sp, State.takeOffer_regs, State.takeOffer_flags, State.takeOffer_byteAt] at hback
  exact ⟨_, _, step_of_accepted ho hinte hpending hf, rfl, hback⟩

/-- RET after a call with RAM under the stack: nothing but PC, `ei_pending` and the two bytes below SP is changed. -/
theorem State.returnToCaller_callTo {s u : State} (len target : Word) (hhigh : kindAt s.params (s.sp - 1) = .ram)
    (hlow : kindAt s.params (s.sp - 2) = .ram) (hu : u = (s.callTo len target).returnToCaller) :
    Transfers s u s.sp (s.pc + len) ∧ SameEnvironment s u ∧
      ∀ a : Word, a ≠ s.sp - 1 → a ≠ s.sp - 2 → u.byteAt a = s.byteAt a := by
  rw [State.callTo, State.returnToCaller_push16 _ _ hhigh hlow] at hu
  subst hu
  exact ⟨⟨rfl, rfl, by simp, by simp, SameControl.goto (by simp [KeepsControl]) _⟩,
    ⟨State.push16_history _ hhigh hlow, by simp, by simp⟩, fun a ha hb => s.push16_byteAt_other _ a ha hb⟩

/-- Settles O37: CALL and RST are calls, of three bytes and of one. -/
theorem callThenReturn : Obligations.CallThenReturn := by
  intro adr n s hhigh hlow p hp
  simp only [List.mem_cons, List.not_mem_nil, or_false] at hp
  rcases hp with rfl | rfl
  · exact ⟨_, _, rfl, rfl, State.returnToCaller_callTo 3 adr hhigh hlow rfl⟩
  · exact ⟨_, _, rfl, rfl, State.returnToCaller_callTo 1 (restartAddress n) hhigh hlow rfl⟩

/-! ### Halt and reset -/

/-- A halted machine that accepts nothing lets the offer pass. -/
theorem step_of_halted {s : State} (hh : s.halted = true) (hf : s.faulted = none) (hrun : s.RunsOn) :
    step s = .next s.takeOffer.2 := by
  rw [step_of_not_accepted hrun, instrStep_of_halted (by simpa using hf) (by simpa using hh)]

/-- Where no reset is listed, none is offered. -/
theorem State.takeOffer_ne_reset {s : State} (h : ∀ o ∈ s.offers, o ≠ .reset) : s.takeOffer.1 ≠ .reset := by
  unfold State.takeOffer
  split
  · rename_i o rest ho
    exact h o (ho ▸ List.mem_cons_self)
  · split
    · cases Config.intRequest s.draws <;> exact nofun
    · exact nofun

/-- One transition of a machine halted for good takes one offer off. -/
theorem State.transition_of_final {s : State} (hfinal : s.final = true) (hreset : s.takeOffer.1 ≠ .reset) :
    s.transition = { s with offers := s.offers.tail } := by
  simp only [State.final, Bool.and_eq_true, Bool.not_eq_true', Option.isNone_iff_eq_none] at hfinal
  obtain ⟨⟨hh, hinte⟩, hf⟩ := hfinal
  have hdisabled : s.acceptEnabled = false := by simp [State.acceptEnabled, hinte]
  rw [State.transition_of_next (step_of_halted hh hf (State.runsOn_of_not_enabled hdisabled hreset)),
    State.takeOffer_of_not_enabled hdisabled]

/-- Settles O51, by induction on the number of transitions. -/
theorem haltedStays : Obligations.HaltedStays := by
  refine ⟨fun s hh hf hoffer => step_of_halted hh hf ?_, fun s k => ?_⟩
  · exact hoffer.imp_right fun ⟨n, ho, hinte⟩ => ⟨n, ho, by simp [State.acceptEnabled, hinte]⟩
  · induction k generalizing s with
    | zero => exact fun hfinal _ => ⟨rfl, hfinal⟩
    | succ k ih =>
      intro hfinal hoffers
      obtain ⟨hrun, hend⟩ := ih { s with offers := s.offers.tail } hfinal fun o ho => hoffers o (List.mem_of_mem_tail ho)
      rw [State.run, State.transition_of_final hfinal (State.takeOffer_ne_reset hoffers)]
      exact ⟨by rw [hrun, List.drop_tail], hend⟩

/-- Settles O52: a reset at the head of the list of offers is taken, and `resetRunning` writes each field from RESET_STATE. -/
theorem resetOfRunningMachine : Obligations.ResetOfRunningMachine := by
  intro s rest hoffers
  have hstep : step s = .next ({ s with offers := rest } : State).resetRunning := by
    simp only [step, State.takeOffer_cons hoffers]
  refine ⟨_, hstep, rfl, rfl, rfl, rfl, rfl, fun _ => rfl, rfl, rfl, rfl, rfl, ?standard, ?registers, ?sp, ?flags⟩
  case standard => intro hparams; simp [State.resetRunning, hparams, Config.Params.standard, Config.ResetState.standard]
  case registers =>
    intro p hp v hv
    simp only [List.mem_cons, List.not_mem_nil, or_false] at hp
    rcases hp with rfl | rfl | rfl | rfl | rfl | rfl | rfl <;> simp_all [State.resetRunning, State.getReg, resetReg]
  case sp => intro w hw; simp [State.resetRunning, hw]
  case flags =>
    intro p hp b hb
    simp only [List.mem_cons, List.not_mem_nil, or_false] at hp
    rcases hp with rfl | rfl | rfl | rfl | rfl <;> simp_all [State.resetRunning]

/-- Settles O53: the default parameters have no region in MEMMAP. -/
theorem powerOnState : Obligations.PowerOnState :=
  ⟨rfl, rfl, rfl, rfl, rfl, rfl, rfl, rfl, rfl, kindAt_of_memMap_nil rfl⟩

/-- Settles O54: no memory is listed, and neither `ei_pending` nor the halt is set. -/
theorem invAtReset : Obligations.InvAtReset := ⟨rfl, nofun, nofun, rfl⟩

end Sys2Proof.Machine
end

section
/-! SUPPORT. 8-bit and 16-bit transfers (spec/40_transfer8.md, spec/41_transfer16.md): what a write after some reads leaves as it
was, and the instructions that move bytes between registers, memory and the stack. -/

namespace Sys2Proof.Machine

/-! ### Reads before a write -/

/-- From `s` to `u` memory was read and nothing written: only the environment's part may differ. -/
structure ReadsOnly (s u : State) : Prop where
  regs : u.regs = s.regs
  flags : u.flags = s.flags
  sp : u.sp = s.sp
  pc : u.pc = s.pc
  control : KeepsControl s u
  memory : SameMemory s u

theorem ReadsOnly.refl (s : State) : ReadsOnly s s := ⟨rfl, rfl, rfl, rfl, KeepsControl.refl s, fun _ => rfl⟩

theorem ReadsOnly.load (s : State) (a : Word) : ReadsOnly s (s.load a).2 :=
  ⟨s.load_regs a, s.load_flags a, s.load_sp a, s.load_pc a, by simp [KeepsControl], s.load_byteAt a⟩

theorem ReadsOnly.load16 (s : State) (a : Word) : ReadsOnly s (s.load16 a).2 :=
  ⟨s.load16_regs a, s.load16_flags a, s.load16_sp a, s.load16_pc a, by simp [KeepsControl], s.load16_byteAt a⟩

theorem ReadsOnly.getReg {s u : State} (h : ReadsOnly s u) (r : Reg) : u.getReg r = s.getReg r := State.getReg_congr h.regs r

theorem ReadsOnly.pc_advance {s u : State} (h : ReadsOnly s u) (len : Word) : (u.advance len).pc = s.pc + len := by
  rw [State.advance_pc, h.pc]

theorem sameEnvironment_refl (s : State) : SameEnvironment s s := ⟨rfl, rfl, rfl⟩

/-- A register written after some reads. -/
theorem ReadsOnly.writesReg {s u : State} (h : ReadsOnly s u) (dst : Reg) (v : Byte) (len : Word) :
    WritesReg s u ((u.setReg dst v).advance len) dst v len := by
  have hcontrol : KeepsControl s (u.setReg dst v) := by simpa [KeepsControl] using h.control
  refine ⟨?value, fun r hr => ?others, ?flags, ?sp, ?pc, sameControl_advance hcontrol len, by simp [SameEnvironment], ?memory⟩
  case value => rw [State.getReg_congr (State.advance_regs _ len), State.getReg_setReg_same]
  case others =>
    rw [State.getReg_congr (State.advance_regs _ len), State.getReg_setReg_other u v (List.ne_of_not_mem_cons hr), h.getReg]
  case flags => rw [State.advance_flags, State.setReg_flags, h.flags]
  case sp => rw [State.advance_sp, State.setReg_sp, h.sp]
  case pc => rw [State.advance_pc, State.setReg_pc, h.pc]
  case memory =>
    intro a
    rw [State.advance_byteAt, State.setReg_byteAt, h.memory]

/-! ### 8-bit transfers -/

/-- LDAX and STAX of BC and DE are instructions. -/
theorem addressesMemory_of_bc_or_de {pair : RegPair} (h : pair = .bc ∨ pair = .de) : pair.addressesMemory = true := by
  rcases h with rfl | rfl <;> rfl

theorem exec_ldax {pair : RegPair} (h : pair.addressesMemory = true) (s : State) :
    exec (.ldax pair) s = .next (((s.load (s.getPair pair)).2.setReg .a (s.load (s.getPair pair)).1).advance 1) := by
  simp only [exec, execLdax, h, if_true]

theorem exec_stax {pair : RegPair} (h : pair.addressesMemory = true) (s : State) :
    exec (.stax pair) s = .next ((s.store (s.getPair pair) s.regs.a).advance 1) := by
  simp only [exec, execStax, h, if_true]

/-- Settles O11: each is a write of a register. -/
theorem moveToRegister : Obligations.MoveToRegister := by
  intro dst src imm s
  exact ⟨rfl, ⟨_, rfl, (ReadsOnly.refl s).writesReg dst _ 1⟩, rfl, ⟨_, rfl, (ReadsOnly.refl s).writesReg dst imm 2⟩⟩

/-- Settles O12: each is one read and a write of a register. -/
theorem loadToRegister : Obligations.LoadToRegister := by
  intro dst adr pair s hpair
  exact ⟨rfl, ⟨_, rfl, (ReadsOnly.load s _).writesReg dst _ 1⟩, rfl, ⟨_, rfl, (ReadsOnly.load s adr).writesReg .a _ 3⟩, rfl,
    ⟨_, exec_ldax (addressesMemory_of_bc_or_de hpair) s, (ReadsOnly.load s _).writesReg .a _ 1⟩⟩

/-- One byte stored, and PC moved on. -/
theorem storesByte_store_advance (s : State) (a : Word) (v : Byte) (len : Word) :
    let t := (s.store a v).advance len
    StoresByte s t a v ∧ t.regs = s.regs ∧ t.flags = s.flags ∧ t.sp = s.sp ∧ t.pc = s.pc + len ∧ SameControl s t :=
  ⟨storesByte_store s a v, s.store_regs a v, s.store_flags a v, s.store_sp a v, by simp,
    sameControl_advance (keepsControl_store s a v) len⟩

/-- Settles O13: each is one store. -/
theorem storeFromRegister : Obligations.StoreFromRegister := by
  intro src imm adr pair s hpair
  refine ⟨rfl, rfl, rfl, rfl, fun p hp => ?_⟩
  simp only [List.mem_cons, List.not_mem_nil, or_false] at hp
  rcases hp with rfl | rfl | rfl | rfl
  · exact ⟨_, rfl, storesByte_store_advance s _ _ 1⟩
  · exact ⟨_, rfl, storesByte_store_advance s _ imm 2⟩
  · exact ⟨_, rfl, storesByte_store_advance s adr _ 3⟩
  · exact ⟨_, exec_stax (addressesMemory_of_bc_or_de hpair) s, storesByte_store_advance s _ _ 1⟩

/-! ### HL and memory -/

theorem State.setPair_hl_sp (s : State) (w : Word) : (s.setPair .hl w).sp = s.sp := rfl

/-- A write to HL leaves the five other registers as they were. -/
theorem sameRegsBut_setPair_hl {s u : State} (h : u.regs = s.regs) (w len : Word) :
    SameRegsBut [.h, .l] s ((u.setPair .hl w).advance len) := by
  intro r hr
  cases r with
  | h | l => simp at hr
  | b | c | d | e | a => simp only [State.getReg, State.advance_regs, State.setPair, State.withRegs_regs, h]

/-- HL written after some reads. -/
theorem ReadsOnly.writesHl {s u : State} (h : ReadsOnly s u) (high low : Byte) (len : Word) :
    let t := (u.setPair .hl (joinBytes high low)).advance len
    t.regs.l = low ∧ t.regs.h = high ∧ SameRegsBut [.h, .l] s t ∧ t.flags = s.flags ∧ t.sp = s.sp ∧ t.pc = s.pc + len ∧
      SameControl s t ∧ SameEnvironment u t ∧ SameMemory s t := by
  have hcontrol : KeepsControl s (u.setPair .hl (joinBytes high low)) := by simpa [KeepsControl] using h.control
  refine ⟨loByte_joinBytes high low, hiByte_joinBytes high low, sameRegsBut_setPair_hl h.regs _ len, ?flags, h.sp, ?pc,
    sameControl_advance hcontrol len, by simp [SameEnvironment], ?memory⟩
  case flags => rw [State.advance_flags, State.setPair_flags, h.flags]
  case pc => rw [State.advance_pc, State.setPair_pc, h.pc]
  case memory =>
    intro a
    rw [State.advance_byteAt, State.setPair_byteAt, h.memory]

/-- Settles O15: LHLD is two reads and a write of HL, SHLD two stores. -/
theorem loadStoreHlDirect : Obligations.LoadStoreHlDirect := by
  intro adr s
  have hstores : StoresTwo s (s.store16 adr s.hl) adr s.regs.l (adr + 1) s.regs.h := by
    have h := storesTwo_store_store s (loByte s.hl) (hiByte s.hl) (Word.add_one_ne_self adr).symm
    simpa only [State.store16, State.hl_eq, loByte_joinBytes, hiByte_joinBytes] using h
  have hcontrol : KeepsControl s (s.store16 adr s.hl) := by simp [KeepsControl]
  exact ⟨⟨_, rfl, (ReadsOnly.load16 s adr).writesHl _ _ 3⟩,
    ⟨_, rfl, hstores, s.store16_regs _ _, s.store16_flags _ _, s.store16_sp _ _, by simp, sameControl_advance hcontrol 3⟩⟩

/-! ### The stack -/

theorem exec_pushRp {pair : RegPair} (h : pair ≠ .sp) (s : State) :
    exec (.pushRp pair) s = .next ((s.push16 (s.getPair pair)).advance 1) := by
  simp only [exec, execPushRp, stackable_of_ne_sp h, if_true]

theorem exec_popRp {pair : RegPair} (h : pair ≠ .sp) (s : State) :
    exec (.popRp pair) s = .next ((s.pop16.2.setPair pair s.pop16.1).advance 1) := by
  simp only [exec, execPopRp, stackable_of_ne_sp h, if_true]

/-- A push and a jump: what CALL, RST and PUSH do to registers and control. -/
theorem transfers_push16_goto (s : State) (w target : Word) : Transfers s ((s.push16 w).goto target) (s.sp - 2) target :=
  ⟨rfl, s.push16_sp w, s.push16_regs w, s.push16_flags w, SameControl.goto (by simp [KeepsControl]) target⟩

theorem transfers_push16_advance (s : State) (w len : Word) :
    Transfers s ((s.push16 w).advance len) (s.sp - 2) (s.pc + len) := by
  rw [State.advance, State.push16_pc]
  exact transfers_push16_goto s w (s.pc + len)

/-- Where the flag byte holds what (10_state.md R30). -/
theorem flagByte_bits (fixed : Config.PswFixed) (f : Flags) :
    (flagByte fixed f).getLsbD 7 = f.s ∧ (flagByte fixed f).getLsbD 6 = f.z ∧ (flagByte fixed f).getLsbD 5 = fixed.bit5 ∧
    (flagByte fixed f).getLsbD 4 = f.ac ∧ (flagByte fixed f).getLsbD 3 = fixed.bit3 ∧ (flagByte fixed f).getLsbD 2 = f.p ∧
    (flagByte fixed f).getLsbD 1 = fixed.bit1 ∧ (flagByte fixed f).getLsbD 0 = f.cy := by
  simp only [flagByte, BitVec.getLsbD_append]
  simp

/-- Settles O16: both are a push; the word PSW pushes is A and the flag byte. -/
theorem pushPair : Obligations.PushPair := by
  intro pair s hpair
  have hpsw := storesTwo_push16 s (joinBytes s.regs.a (flagByte s.params.pswFixed s.flags))
  rw [hiByte_joinBytes, loByte_joinBytes] at hpsw
  exact ⟨⟨_, exec_pushRp hpair s, storesTwo_push16 s _, transfers_push16_advance s _ 1⟩,
    ⟨_, _, rfl, hpsw, transfers_push16_advance s _ 1, flagByte_bits _ _⟩⟩

/-- A pair of two registers reads alike where the registers do. -/
theorem State.getPair_congr_of_ne_sp {s t : State} (h : t.regs = s.regs) {p : RegPair} (hp : p ≠ .sp) : t.getPair p = s.getPair p := by
  cases p with
  | bc | de | hl => simp only [State.getPair, h]
  | sp => exact absurd rfl hp

theorem State.setPair_sp_of_ne (s : State) {p : RegPair} (w : Word) (h : p ≠ .sp) : (s.setPair p w).sp = s.sp := by
  cases p with
  | bc | de | hl => rfl
  | sp => exact absurd rfl h

/-- Settles O17: both are two reads, a move of SP and a write, of the pair or of A and the flags. -/
theorem popPair : Obligations.PopPair := by
  intro pair s hpair
  refine ⟨⟨_, exec_popRp hpair s, ?value, fun q hq hsp => ?others, ?a, by simp, ?sp, by simp,
    sameControl_advance (by simp [KeepsControl]) 1, by simp [SameEnvironment, State.pop16, State.load16],
    fun x => by simp⟩, ⟨_, rfl, ?psw, fun r hr => ?pswOthers, ?s, ?z, ?ac, ?p, ?cy, by simp, by simp,
    sameControl_advance (by simp [KeepsControl]) 1, by simp [SameEnvironment, State.pop16, State.load16],
    fun x => by simp⟩⟩
  case value =>
    rw [State.getPair_advance, State.getPair_setPair_self]
    rfl
  case others =>
    rw [State.getPair_advance, State.getPair_setPair_other _ _ hq, State.getPair_congr_of_ne_sp s.pop16_regs hsp]
  case a => rw [State.advance_regs, State.setPair_regs_a, State.pop16_regs]
  case sp => rw [State.advance_sp, State.setPair_sp_of_ne _ _ hpair, State.pop16_sp]
  case psw => exact hiByte_joinBytes _ _
  case pswOthers =>
    rw [State.getReg_congr (State.advance_regs _ 1), State.getReg_congr (State.withFlags_regs _ _),
      State.getReg_setReg_other _ _ (List.ne_of_not_mem_cons hr), State.getReg_congr s.pop16_regs]
  all_goals simp [flagsOfByte, State.pop16, State.load16]

/-- POP PSW reads back the flags that PUSH PSW wrote. -/
theorem flagsOfByte_flagByte (fixed : Config.PswFixed) (f : Flags) : flagsOfByte (flagByte fixed f) = f := by
  obtain ⟨hs, hz, -, hac, -, hp, -, hcy⟩ := flagByte_bits fixed f
  simp only [flagsOfByte, hs, hz, hac, hp, hcy]

/-- The canonical flag byte (R127): the three free bits replaced by the default PSW_FIXED. -/
theorem flagByte_flagsOfByte (v : Byte) : flagByte Config.Params.standard.pswFixed (flagsOfByte v) = v &&& 0xD5 ||| 0x02 := by
  revert v; decide

/-- PUSH PSW then POP PSW, with RAM under the stack. -/
theorem popPsw_pushPsw {s : State} (hhigh : kindAt s.params (s.sp - 1) = .ram) (hlow : kindAt s.params (s.sp - 2) = .ram) :
    ∃ t u, exec .pushPsw s = .next t ∧ exec .popPsw t = .next u ∧ u.regs = s.regs ∧ u.flags = s.flags ∧ u.sp = s.sp := by
  refine ⟨_, _, rfl, rfl, ?regs, ?flags, ?sp⟩ <;>
    simp only [State.advance, State.pop16_goto, State.pop16_push16 _ hhigh hlow, hiByte_joinBytes, loByte_joinBytes]
  case regs => simp [State.setReg]
  case flags => simp [flagsOfByte_flagByte]
  case sp => simp

/-- A pop from RAM or ROM changes nothing but SP. -/
theorem State.pop16_of_stored {s : State} (hlow : kindAt s.params s.sp = .ram ∨ kindAt s.params s.sp = .rom)
    (hhigh : kindAt s.params (s.sp + 1) = .ram ∨ kindAt s.params (s.sp + 1) = .rom) :
    s.pop16 = (joinBytes (s.byteAt (s.sp + 1)) (s.byteAt s.sp), s.withSp (s.sp + 2)) := by
  simp only [State.pop16, State.load16_of_stored hlow hhigh]

theorem exec_popPsw (s : State) :
    exec .popPsw s =
      .next (((s.pop16.2.setReg .a (hiByte s.pop16.1)).withFlags (flagsOfByte (loByte s.pop16.1))).advance 1) := rfl

theorem exec_pushPsw (s : State) :
    exec .pushPsw s = .next ((s.push16 (joinBytes s.regs.a (flagByte s.params.pswFixed s.flags))).advance 1) := rfl

/-- POP PSW then PUSH PSW, with RAM at the stack: both bytes are written back, the flag byte in canonical form. -/
theorem pushPsw_popPsw {s : State} (hlow : kindAt s.params s.sp = .ram) (hhigh : kindAt s.params (s.sp + 1) = .ram)
    (hfixed : s.params.pswFixed = Config.Params.standard.pswFixed) :
    ∃ t u, exec .popPsw s = .next t ∧ exec .pushPsw t = .next u ∧ u.sp = s.sp ∧
      u.byteAt s.sp = (s.byteAt s.sp &&& 0xD5) ||| 0x02 ∧ u.byteAt (s.sp + 1) = s.byteAt (s.sp + 1) := by
  have hsp : s.sp + 2 - 2 = s.sp := by bv_omega
  have hsp' : s.sp + 2 - 1 = s.sp + 1 := by bv_omega
  refine ⟨_, _, exec_popPsw s, exec_pushPsw _, ?_⟩
  simp only [State.pop16_of_stored (.inl hlow) (.inl hhigh), hiByte_joinBytes, loByte_joinBytes]
  generalize ht : (((s.withSp (s.sp + 2)).setReg .a (s.byteAt (s.sp + 1))).withFlags (flagsOfByte (s.byteAt s.sp))).advance 1 = t
  have htsp : t.sp = s.sp + 2 := by rw [← ht]; simp
  have htparams : t.params = s.params := by rw [← ht]; simp
  have hword : joinBytes t.regs.a (flagByte t.params.pswFixed t.flags) =
      joinBytes (s.byteAt (s.sp + 1)) (s.byteAt s.sp &&& 0xD5 ||| 0x02) := by
    rw [htparams, hfixed, ← flagByte_flagsOfByte, ← ht]
    rfl
  obtain ⟨-, hbyteHigh, hbyteLow, -⟩ := storesTwo_push16 t (joinBytes (s.byteAt (s.sp + 1)) (s.byteAt s.sp &&& 0xD5 ||| 0x02))
  rw [htsp, hsp', htparams, if_pos hhigh, hiByte_joinBytes] at hbyteHigh
  rw [htsp, hsp, htparams, if_pos hlow, loByte_joinBytes] at hbyteLow
  rw [hword]
  refine ⟨?_, hbyteLow, hbyteHigh⟩
  rw [State.advance_sp, State.push16_sp, htsp, hsp]

/-- Settles O18. Either way one of the two undoes the other, but for the three free bits of the flag byte. -/
theorem pswRoundTrip : Obligations.PswRoundTrip :=
  ⟨fun _ => popPsw_pushPsw, fun _ => pushPsw_popPsw⟩

/-- Settles O19: both bytes are read first, then both are stored, and HL takes what was read. -/
theorem exchangeStackTop : Obligations.ExchangeStackTop := by
  intro s
  have hregs : (((s.load16 s.sp).2.store (s.sp + 1) s.regs.h).store s.sp s.regs.l).regs = s.regs := by simp
  refine ⟨_, rfl, loByte_joinBytes _ _, hiByte_joinBytes _ _, ?stores, sameRegsBut_setPair_hl hregs _ 1, by simp, ?sp, by simp,
    sameControl_advance (by simp [KeepsControl]) 1⟩
  case stores => exact storesTwo_store_store (s.load16 s.sp).2 s.regs.h s.regs.l (Word.add_one_ne_self s.sp)
  case sp => rw [State.advance_sp, State.setPair_hl_sp]; simp

/-- Settles O20: SPHL and PCHL set one field each, XCHG writes HL and DE with each other's old word. -/
theorem moveHl : Obligations.MoveHl := by
  intro s
  refine ⟨rfl, ⟨_, rfl, ⟨rfl, rfl, rfl, rfl, SameControl.goto (by simp [KeepsControl]) _⟩, sameEnvironment_refl s, fun _ => rfl⟩,
    rfl, ⟨_, rfl, ⟨rfl, rfl, rfl, rfl, SameControl.goto (KeepsControl.refl s) _⟩, sameEnvironment_refl s, fun _ => rfl⟩,
    rfl, ⟨_, rfl, ?h, ?l, ?d, ?e, fun r hr => ?others, rfl, rfl, rfl, SameControl.goto (by simp [KeepsControl]) _,
      sameEnvironment_refl s, fun _ => rfl⟩⟩
  case h => exact hiByte_joinBytes s.regs.d s.regs.e
  case l => exact loByte_joinBytes s.regs.d s.regs.e
  case d => exact hiByte_joinBytes s.regs.h s.regs.l
  case e => exact loByte_joinBytes s.regs.h s.regs.l
  case others =>
    cases r with
    | a | b | c => rfl
    | d | e | h | l => simp at hr

end Sys2Proof.Machine
end

section
/-! SUPPORT. 8-bit arithmetic, logic and rotates (spec/42_arith8.md, spec/43_logic_cmp_daa.md, spec/46_rotate.md): the flags of a result
on naturals, and the instructions that write A and the flags. -/

namespace Sys2Proof.Machine

/-! ### Results and flags on naturals -/

/-- Z, S and P of a result, whatever CY and AC are. -/
theorem zspOf_setZSP (v : Byte) (f : Flags) : ZspOf v (setZSP v f) := by
  have hzero : ∀ v : Byte, (v == 0x00) = true ↔ v.toNat = 0 := by decide
  have hsign : ∀ v : Byte, v.getLsbD 7 = true ↔ 128 ≤ v.toNat := by decide
  have hparity : ∀ v : Byte, parity8 v = true ↔ ((List.range 8).countP v.getLsbD) % 2 = 0 := by decide
  exact ⟨hzero v, hsign v, hparity v⟩

theorem zspOf_arithFlags (r : Alu) (f : Flags) : ZspOf r.res (arithFlags r f) := zspOf_setZSP _ _

theorem zspOf_flagsLogic (v : Byte) (ac : Bool) (f : Flags) : ZspOf v (flagsLogic v ac f) := zspOf_setZSP _ _

/-- R141 on naturals. -/
theorem sumOf_add8 (a v : Byte) (c : Bool) (f : Flags) : SumOf a v c (add8 a v c).res (arithFlags (add8 a v c) f) := by
  refine ⟨by simp [add8], ?cy, ?ac, zspOf_arithFlags _ _⟩
  case cy => simp only [arithFlags_cy, add8, decide_eq_true_eq]; omega
  case ac => simp only [arithFlags_ac, add8, decide_eq_true_eq]; omega

/-- R142 on naturals: adding the complement and the inverted borrow is subtracting. -/
theorem differenceOf_sub8 (a v : Byte) (c : Bool) (f : Flags) :
    DifferenceOf a v c (sub8 a v c).res (arithFlags (sub8 a v c) f) := by
  have hv : (~~~v).toNat = 255 - v.toNat := BitVec.toNat_not
  have hlt := v.isLt
  have hc : (!c).toNat = 1 - c.toNat := by cases c <;> rfl
  have hcle : c.toNat ≤ 1 := by cases c <;> decide
  refine ⟨?res, ?cy, ?ac, zspOf_arithFlags _ _⟩
  case res => simp only [sub8, add8, BitVec.toNat_ofNat, hv, hc]; omega
  case cy => simp only [arithFlags_cy, sub8, add8, Bool.not_eq_true', decide_eq_false_iff_not, hv, hc]; omega
  case ac => simp only [arithFlags_ac, sub8, add8, decide_eq_true_eq, hv, hc]; omega

/-! ### A and the flags written -/

/-- A and the flags written after some reads. -/
theorem ReadsOnly.writesAAndFlags {s u : State} (h : ReadsOnly s u) (r : Byte) (f : Flags) (len : Word)
    {holds : Byte → Flags → Prop} (hrf : holds r f) :
    WritesAAndFlags s u (((u.withRegs { u.regs with a := r }).withFlags f).advance len) len holds := by
  have hcontrol : KeepsControl s ((u.withRegs { u.regs with a := r }).withFlags f) := h.control
  refine ⟨hrf, fun q hq => ?_, h.sp, h.pc_advance len, sameControl_advance hcontrol len, sameEnvironment_refl u, h.memory⟩
  rw [← h.getReg q]
  cases q with
  | a => simp at hq
  | b | c | d | e | h | l => rfl

/-- The flags written after some reads. -/
theorem ReadsOnly.writesFlags {s u : State} (h : ReadsOnly s u) (f : Flags) (len : Word) {holds : Flags → Prop} (hf : holds f) :
    WritesFlags s u ((u.withFlags f).advance len) len holds := by
  have hcontrol : KeepsControl s (u.withFlags f) := h.control
  exact ⟨hf, h.regs, h.sp, h.pc_advance len, sameControl_advance hcontrol len, sameEnvironment_refl u, h.memory⟩

/-- A sum written to A after the operand was read. -/
theorem ReadsOnly.addsToA {s u : State} (h : ReadsOnly s u) (v : Byte) (c : Bool) (len : Word) :
    WritesAAndFlags s u ((u.accumulate (add8 u.regs.a v c)).advance len) len (SumOf s.regs.a v c) := by
  rw [h.regs]
  exact h.writesAAndFlags _ _ len (sumOf_add8 s.regs.a v c u.flags)

/-- A difference written to A after the operand was read. -/
theorem ReadsOnly.subtractsFromA {s u : State} (h : ReadsOnly s u) (v : Byte) (c : Bool) (len : Word) :
    WritesAAndFlags s u ((u.accumulate (sub8 u.regs.a v c)).advance len) len (DifferenceOf s.regs.a v c) := by
  rw [h.regs]
  exact h.writesAAndFlags _ _ len (differenceOf_sub8 s.regs.a v c u.flags)

/-- Settles O22: each adds the operand read, with the old carry or without. -/
theorem addToA : Obligations.AddToA := by
  intro src imm s u m p hp
  have hhere := ReadsOnly.refl s
  have hread : ReadsOnly s u := ReadsOnly.load s s.hl
  simp only [List.mem_cons, List.not_mem_nil, or_false] at hp
  rcases hp with rfl | rfl | rfl | rfl | rfl | rfl
  · exact ⟨_, rfl, hhere.addsToA _ false 1⟩
  · exact ⟨_, rfl, hread.addsToA m false 1⟩
  · exact ⟨_, rfl, hhere.addsToA _ _ 1⟩
  · exact ⟨_, rfl, hread.flags ▸ hread.addsToA m u.flags.cy 1⟩
  · exact ⟨_, rfl, hhere.addsToA imm false 2⟩
  · exact ⟨_, rfl, hhere.addsToA imm _ 2⟩

/-- Settles O23: each subtracts the operand read, with the old borrow or without. -/
theorem subtractFromA : Obligations.SubtractFromA := by
  intro src imm s u m p hp
  have hhere := ReadsOnly.refl s
  have hread : ReadsOnly s u := ReadsOnly.load s s.hl
  simp only [List.mem_cons, List.not_mem_nil, or_false] at hp
  rcases hp with rfl | rfl | rfl | rfl | rfl | rfl
  · exact ⟨_, rfl, hhere.subtractsFromA _ false 1⟩
  · exact ⟨_, rfl, hread.subtractsFromA m false 1⟩
  · exact ⟨_, rfl, hhere.subtractsFromA _ _ 1⟩
  · exact ⟨_, rfl, hread.flags ▸ hread.subtractsFromA m u.flags.cy 1⟩
  · exact ⟨_, rfl, hhere.subtractsFromA imm false 2⟩
  · exact ⟨_, rfl, hhere.subtractsFromA imm _ 2⟩

/-- What the flags of a subtraction say of its operands. -/
theorem differenceOf_compares {a v r : Byte} {f : Flags} (h : DifferenceOf a v false r f) :
    (f.z = true ↔ a = v) ∧ (f.cy = true ↔ a.toNat < v.toNat) := by
  obtain ⟨hres, hcy, -, hz, -⟩ := h
  have ha := a.isLt
  have hv := v.isLt
  rw [Bool.toNat_false] at hres hcy
  exact ⟨by rw [hz, ← BitVec.toNat_inj]; omega, hcy⟩

theorem ReadsOnly.comparesWithA {s u : State} (h : ReadsOnly s u) (v : Byte) (len : Word) :
    WritesFlags s u ((u.compare (sub8 u.regs.a v false)).advance len) len (fun f =>
      (∃ r, DifferenceOf s.regs.a v false r f) ∧ (f.z = true ↔ s.regs.a = v) ∧ (f.cy = true ↔ s.regs.a.toNat < v.toNat)) := by
  rw [h.regs]
  have hdiff := differenceOf_sub8 s.regs.a v false u.flags
  exact h.writesFlags _ len ⟨⟨_, hdiff⟩, differenceOf_compares hdiff⟩

/-- Settles O24: each subtracts the operand read and keeps only the flags. -/
theorem compareWithA : Obligations.CompareWithA := by
  intro src imm s u m p hp
  simp only [List.mem_cons, List.not_mem_nil, or_false] at hp
  rcases hp with rfl | rfl | rfl
  · exact ⟨_, rfl, (ReadsOnly.refl s).comparesWithA _ 1⟩
  · exact ⟨_, rfl, (ReadsOnly.load s s.hl).comparesWithA m 1⟩
  · exact ⟨_, rfl, (ReadsOnly.refl s).comparesWithA imm 2⟩

/-! ### INR and DCR -/

/-- A register and the flags written. -/
theorem setReg_withFlags_advance (s : State) (r : Reg) {v : Byte} (f : Flags) (len : Word) {holds : Byte → Prop} (hv : holds v) :
    let t := ((s.setReg r v).withFlags f).advance len
    holds (t.getReg r) ∧ t.flags = f ∧ SameRegsBut [r] s t ∧ t.sp = s.sp ∧ t.pc = s.pc + len ∧ SameControl s t ∧
      SameEnvironment s t ∧ SameMemory s t := by
  obtain ⟨hvalue, hothers, -, hsp, hpc, hcontrol, henv, hmem⟩ := (ReadsOnly.refl s).writesReg r v len
  refine ⟨?_, rfl, fun q hq => (State.getReg_congr rfl q).trans (hothers q hq), hsp, hpc, hcontrol, henv, hmem⟩
  rwa [State.getReg_congr (State.advance_regs _ len), State.getReg_congr (State.withFlags_regs _ f), State.getReg_setReg_same]

/-- Settles O25: a register is written with the sum or difference, and its flags but for CY. -/
theorem stepRegister : Obligations.StepRegister := by
  intro r s
  let sum := add8 (s.getReg r) 1 false
  let diff := sub8 (s.getReg r) 1 false
  exact ⟨⟨_, arithFlags sum s.flags, rfl, setReg_withFlags_advance s r (stepFlags sum s.flags) 1
      (holds := fun v => SumOf (s.getReg r) 1 false v (arithFlags sum s.flags)) (sumOf_add8 _ 1 false s.flags)⟩,
    ⟨_, arithFlags diff s.flags, rfl, setReg_withFlags_advance s r (stepFlags diff s.flags) 1
      (holds := fun v => DifferenceOf (s.getReg r) 1 false v (arithFlags diff s.flags)) (differenceOf_sub8 _ 1 false s.flags)⟩⟩

/-- A byte stored after some reads, with the flags. -/
theorem ReadsOnly.storesByte_withFlags {s u : State} (h : ReadsOnly s u) (a : Word) (v : Byte) (f : Flags) (len : Word) :
    let t := ((u.store a v).withFlags f).advance len
    StoresByte u t a v ∧ t.regs = s.regs ∧ t.sp = s.sp ∧ t.pc = s.pc + len ∧ SameControl s t := by
  have hcontrol : KeepsControl s ((u.store a v).withFlags f) := by simpa [KeepsControl] using h.control
  exact ⟨storesByte_store u a v, (u.store_regs a v).trans h.regs, (u.store_sp a v).trans h.sp, by simp [h.pc],
    sameControl_advance hcontrol len⟩

/-- Settles O26: the byte at HL is read before its successor or predecessor is stored there. -/
theorem stepMemory : Obligations.StepMemory := by
  intro s u m
  have hread : ReadsOnly s u := ReadsOnly.load s s.hl
  have hhl : u.hl = joinBytes s.regs.h s.regs.l := by rw [State.hl, hread.regs]
  refine ⟨⟨_, _, _, rfl, sumOf_add8 m 1 false s.flags, ?_, ?_⟩, ⟨_, _, _, rfl, differenceOf_sub8 m 1 false s.flags, ?_, ?_⟩⟩
  · exact congrArg (stepFlags _) hread.flags
  · exact hhl ▸ hread.storesByte_withFlags u.hl _ _ 1
  · exact congrArg (stepFlags _) hread.flags
  · exact hhl ▸ hread.storesByte_withFlags u.hl _ _ 1

/-! ### Logic -/

/-- Z, S and P from a logical result, CY cleared, AC as given (R170). -/
theorem ReadsOnly.writesLogic {s u : State} (h : ReadsOnly s u) (r : Byte) (ac : Bool) (len : Word) {holds : Byte → Flags → Prop}
    (hr : holds r (flagsLogic r ac u.flags)) :
    WritesAAndFlags s u (((u.withRegs { u.regs with a := r }).withFlags (flagsLogic r ac u.flags)).advance len) len holds :=
  h.writesAAndFlags r _ len hr

theorem ReadsOnly.andsWithA {s u : State} (h : ReadsOnly s u) (v : Byte) (len : Word) :
    WritesAAndFlags s u ((u.andA v).advance len) len (fun r f =>
      (∀ k < 8, r.getLsbD k = (s.regs.a.getLsbD k && v.getLsbD k)) ∧ ZspOf r f ∧ f.cy = false ∧
        (s.params.acAnd = .orBit3 → f.ac = (s.regs.a.getLsbD 3 || v.getLsbD 3)) ∧ (s.params.acAnd = .zero → f.ac = false)) := by
  obtain ⟨-, -, -, hparams, -⟩ := h.control
  rw [← h.regs, ← hparams]
  refine h.writesLogic _ _ len ⟨fun k _ => BitVec.getLsbD_and, zspOf_flagsLogic _ _ _, rfl, fun hpolicy => ?_, fun hpolicy => ?_⟩
  · rw [flagsLogic_ac, hpolicy]
    exact BitVec.getLsbD_or
  · rw [flagsLogic_ac, hpolicy]
    rfl

theorem ReadsOnly.xorsWithA {s u : State} (h : ReadsOnly s u) (v : Byte) (len : Word) :
    WritesAAndFlags s u ((u.xorA v).advance len) len (fun r f =>
      (∀ k < 8, r.getLsbD k = (s.regs.a.getLsbD k != v.getLsbD k)) ∧ ZspOf r f ∧ f.cy = false ∧ f.ac = false) := by
  rw [← h.regs]
  exact h.writesLogic _ _ len ⟨fun k _ => BitVec.getLsbD_xor, zspOf_flagsLogic _ _ _, rfl, rfl⟩

theorem ReadsOnly.orsWithA {s u : State} (h : ReadsOnly s u) (v : Byte) (len : Word) :
    WritesAAndFlags s u ((u.orA v).advance len) len (fun r f =>
      (∀ k < 8, r.getLsbD k = (s.regs.a.getLsbD k || v.getLsbD k)) ∧ ZspOf r f ∧ f.cy = false ∧ f.ac = false) := by
  rw [← h.regs]
  exact h.writesLogic _ _ len ⟨fun k _ => BitVec.getLsbD_or, zspOf_flagsLogic _ _ _, rfl, rfl⟩

/-- Settles O27: each is one AND with the operand read. -/
theorem andWithA : Obligations.AndWithA := by
  intro src imm s u m p hp
  simp only [List.mem_cons, List.not_mem_nil, or_false] at hp
  rcases hp with rfl | rfl | rfl
  · exact ⟨_, rfl, (ReadsOnly.refl s).andsWithA _ 1⟩
  · exact ⟨_, rfl, (ReadsOnly.load s s.hl).andsWithA m 1⟩
  · exact ⟨_, rfl, (ReadsOnly.refl s).andsWithA imm 2⟩

/-- Settles O28: each is one XOR or OR with the operand read. -/
theorem xorOrWithA : Obligations.XorOrWithA := by
  intro src imm s u m
  refine ⟨fun p hp => ?_, fun p hp => ?_⟩ <;> simp only [List.mem_cons, List.not_mem_nil, or_false] at hp
  · rcases hp with rfl | rfl | rfl
    · exact ⟨_, rfl, (ReadsOnly.refl s).xorsWithA _ 1⟩
    · exact ⟨_, rfl, (ReadsOnly.load s s.hl).xorsWithA m 1⟩
    · exact ⟨_, rfl, (ReadsOnly.refl s).xorsWithA imm 2⟩
  · rcases hp with rfl | rfl | rfl
    · exact ⟨_, rfl, (ReadsOnly.refl s).orsWithA _ 1⟩
    · exact ⟨_, rfl, (ReadsOnly.load s s.hl).orsWithA m 1⟩
    · exact ⟨_, rfl, (ReadsOnly.refl s).orsWithA imm 2⟩

/-! ### Decimal adjust -/

/-- A after the first step of R188's two: 6 is added if the low correction applies. -/
def daaFirstStep (a : Byte) (ac : Bool) : Nat := if daaLow a ac then a.toNat + 6 else a.toNat

/-- What DAA does to A, CY and AC in the two-step form: the low correction, then 0x60 if CY is set or the high digit passes 9. -/
def DaaOf (a : Byte) (cy ac : Bool) (r : Byte) (f : Flags) : Prop :=
  let a1 := daaFirstStep a ac
  r.toNat = (if cy || decide (9 < a1 / 16) then a1 + 96 else a1) % 256 ∧ (f.cy = true ↔ cy = true ∨ 9 < a1 / 16) ∧
    (f.ac = true ↔ (ac = true ∨ 9 < a.toNat % 16) ∧ 9 < a.toNat % 16) ∧ ZspOf r f

theorem daaCorrection_toNat (a : Byte) (cy ac : Bool) :
    (daaCorrection a cy ac).toNat = (if daaLow a ac then 6 else 0) + (if daaHigh a cy then 96 else 0) := by
  unfold daaCorrection
  cases daaLow a ac <;> cases daaHigh a cy <;> rfl

/-- R188 looks at the old A for the high correction: the high digit passes 9 after the low one exactly where it says so. -/
theorem daaHigh_eq (a : Byte) (cy ac : Bool) :
    daaHigh a cy = (cy || decide (9 < daaFirstStep a ac / 16)) := by
  have hlt := a.isLt
  have hhigh : (9 < a.toNat / 16 ∨ 9 ≤ a.toNat / 16 ∧ 9 < a.toNat % 16) ↔
      9 < daaFirstStep a ac / 16 := by
    unfold daaFirstStep daaLow
    cases ac <;> by_cases hdigit : a.toNat % 16 > 9 <;> simp [hdigit] <;> omega
  rw [daaHigh, Bool.or_assoc, ← Bool.decide_and, ← Bool.decide_or, decide_eq_decide.mpr hhigh]

/-- One addition of 00, 06, 60 or 66 does what the two steps do. -/
theorem daaOf_daa (a : Byte) (cy ac : Bool) (f : Flags) : DaaOf a cy ac (daa a cy ac).res (arithFlags (daa a cy ac) f) := by
  have hlt := a.isLt
  refine ⟨?res, ?cy, ?ac, zspOf_arithFlags _ _⟩
  case res =>
    rw [← daaHigh_eq]
    simp only [daa, add8, BitVec.toNat_ofNat, daaCorrection_toNat, daaFirstStep]
    cases daaLow a ac <;> cases daaHigh a cy <;> simp
  case cy =>
    rw [arithFlags_cy, daa, daaHigh_eq a cy ac]
    simp
  case ac =>
    rw [arithFlags_ac]
    have hdigit : a.toNat % 16 + (daaCorrection a cy ac).toNat % 16 > 15 ↔ daaLow a ac = true ∧ 9 < a.toNat % 16 := by
      rw [daaCorrection_toNat]
      cases daaLow a ac <;> cases daaHigh a cy <;> simp <;> omega
    simpa [daa, add8, daaLow] using hdigit

/-- Settles O29: DAA writes A and the flags of `daaOf_daa`. -/
theorem decimalAdjust : Obligations.DecimalAdjust := by
  intro s a low a1 high a2
  exact ⟨_, rfl, (ReadsOnly.refl s).writesAAndFlags _ _ 1 (daaOf_daa s.regs.a s.flags.cy s.flags.ac s.flags)⟩

end Sys2Proof.Machine
end

section
/-! SUPPORT. Decimal addition, 16-bit arithmetic, rotates, ports and the interrupt bits (spec/43_logic_cmp_daa.md section 5,
spec/44_arith16.md, spec/46_rotate.md, spec/47_other.md). -/

namespace Sys2Proof.Machine

/-! ### Decimal addition -/

/-- The value of two decimal digits. -/
def decimalValue (b : Byte) : Nat := b.toNat / 16 * 10 + b.toNat % 16

/-- The two corrections of a sum with digits `high` and `low`, of which a byte and its carry are left: each digit past 9 drops by ten
and carries one. -/
theorem decimal_digits {high low first res : Nat} {carry : Prop} (hhigh : high ≤ 18) (hlow : low ≤ 19)
    (hcarry : carry ↔ 256 ≤ 16 * high + low) (hfirst : first = (16 * high + low) % 256 + if 9 < low then 6 else 0)
    (hres : (carry ∨ 9 < first / 16) ∧ res = (first + 96) % 256 ∨ ¬(carry ∨ 9 < first / 16) ∧ res = first % 256) :
    res % 16 ≤ 9 ∧ res / 16 ≤ 9 ∧ res / 16 * 10 + res % 16 = (10 * high + low) % 100 ∧
      (carry ∨ 9 < first / 16 ↔ 100 ≤ 10 * high + low) := by
  have hhundred : (carry ∨ 9 < first / 16) ↔ 100 ≤ 10 * high + low := by
    rw [hcarry, hfirst]
    split <;> omega
  rw [hhundred] at hres ⊢
  have hmod : first % 256 = (16 * high + low + if 9 < low then 6 else 0) % 256 := by omega
  rcases hres with ⟨hpast, hres⟩ | ⟨hwithin, hres⟩ <;> split at hmod
  · have hdigits : res = 16 * (high - 9) + (low - 10) := by omega
    omega
  · have hdigits : res = 16 * (high - 10) + low := by omega
    omega
  · have hdigits : res = 16 * (high + 1) + (low - 10) := by omega
    omega
  · have hdigits : res = 16 * high + low := by omega
    omega

/-- A sum of two-digit decimal numbers, adjusted: the last two digits in the result, the hundred in CY. -/
theorem decimal_of_sumOf_of_daaOf {a b r r' : Byte} {c : Bool} {f f' : Flags} (halow : a.toNat % 16 ≤ 9) (hahigh : a.toNat / 16 ≤ 9)
    (hblow : b.toNat % 16 ≤ 9) (hbhigh : b.toNat / 16 ≤ 9) (hsum : SumOf a b c r f) (hdaa : DaaOf r f.cy f.ac r' f') :
    r'.toNat % 16 ≤ 9 ∧ r'.toNat / 16 ≤ 9 ∧ decimalValue r' = (decimalValue a + decimalValue b + c.toNat) % 100 ∧
      (f'.cy = true ↔ 100 ≤ decimalValue a + decimalValue b + c.toNat) := by
  obtain ⟨hr, hcy, hac, -⟩ := hsum
  obtain ⟨hr', hcy', -⟩ := hdaa
  have hc : c.toNat ≤ 1 := by cases c <;> decide
  obtain ⟨high, hhigh⟩ : ∃ high, high = a.toNat / 16 + b.toNat / 16 := ⟨_, rfl⟩
  obtain ⟨low, hlow⟩ : ∃ low, low = a.toNat % 16 + b.toNat % 16 + c.toNat := ⟨_, rfl⟩
  have htotal : a.toNat + b.toNat + c.toNat = 16 * high + low := by omega
  have hvalue : decimalValue a + decimalValue b + c.toNat = 10 * high + low := by simp only [decimalValue]; omega
  rw [htotal] at hr hcy
  rw [← hlow] at hac
  have hcorrected : daaLow r f.ac = true ↔ 9 < low := by
    simp only [daaLow, Bool.or_eq_true, decide_eq_true_eq, hac, hr]
    omega
  have hfirst : daaFirstStep r f.ac = (16 * high + low) % 256 + if 9 < low then 6 else 0 := by
    simp only [daaFirstStep, hcorrected, hr]
    split <;> rfl
  have hres : (f.cy = true ∨ 9 < daaFirstStep r f.ac / 16) ∧ r'.toNat = (daaFirstStep r f.ac + 96) % 256 ∨
      ¬(f.cy = true ∨ 9 < daaFirstStep r f.ac / 16) ∧ r'.toNat = daaFirstStep r f.ac % 256 := by
    simp only [Bool.or_eq_true, decide_eq_true_eq] at hr'
    by_cases hpast : f.cy = true ∨ 9 < daaFirstStep r f.ac / 16
    · exact .inl ⟨hpast, by rwa [if_pos hpast] at hr'⟩
    · exact .inr ⟨hpast, by rwa [if_neg hpast] at hr'⟩
  rw [hvalue, hcy']
  exact decimal_digits (by omega) (by omega) hcy hfirst hres

/-- Settles O30: ADC leaves the exact sum with its carries, from which DAA makes the decimal one. -/
theorem decimalAddition : Obligations.DecimalAddition := by
  intro r s halow hahigh hblow hbhigh value sum
  exact ⟨_, _, rfl, rfl, decimal_of_sumOf_of_daaOf halow hahigh hblow hbhigh
    (sumOf_add8 s.regs.a (s.getReg r) s.flags.cy s.flags) (daaOf_daa _ _ _ _)⟩

/-! ### 16-bit arithmetic -/

theorem toNat_joinBytes (high low : Byte) : (joinBytes high low).toNat = high.toNat * 256 + low.toNat := by
  rw [joinBytes, BitVec.toNat_append, ← Nat.shiftLeft_add_eq_or_of_lt low.isLt, Nat.shiftLeft_eq]

/-- The two bytes of a word are its value. -/
theorem toNat_hiByte_loByte (w : Word) : (hiByte w).toNat * 256 + (loByte w).toNat = w.toNat := by
  rw [← toNat_joinBytes, joinBytes_hi_lo]

theorem keepsControl_addHl (s : State) (w : Word) : KeepsControl s (s.addHl w) := ⟨rfl, rfl, rfl, rfl, rfl⟩

/-- Settles O31: HL takes the sum as a word, CY its carry on naturals. -/
theorem addPairToHl : Obligations.AddPairToHl := by
  intro pair s sum
  refine ⟨_, rfl, ?value, ?carry, rfl, rfl, rfl, rfl, fun r hr => ?others, rfl, rfl,
    sameControl_advance (keepsControl_addHl s _) 1, sameEnvironment_refl s, fun _ => rfl⟩
  case value => exact (toNat_hiByte_loByte _).trans (BitVec.toNat_add _ _)
  case carry => exact decide_eq_true_iff.trans (by rfl)
  case others =>
    cases r with
    | h | l => simp at hr
    | b | c | d | e | a => rfl

/-- A pair written and PC moved on: no other pair, not A, no flag. -/
theorem setPair_advance (s : State) (pair : RegPair) (w len : Word) :
    let t := (s.setPair pair w).advance len
    (∀ q : RegPair, q ≠ pair → t.getPair q = s.getPair q) ∧ t.regs.a = s.regs.a ∧ t.flags = s.flags ∧ t.pc = s.pc + len ∧
      SameControl s t ∧ SameEnvironment s t ∧ SameMemory s t := by
  refine ⟨fun q hq => ?_, s.setPair_regs_a pair w, s.setPair_flags pair w, by simp, sameControl_advance (by simp [KeepsControl]) len,
    sameEnvironment_setPair_advance s pair w len, fun a => by simp⟩
  rw [State.getPair_advance, State.getPair_setPair_other s w hq]

/-- Writing back what a pair held restores every register and SP. -/
theorem State.setPair_back (s : State) (pair : RegPair) (w len len' : Word) :
    let u := (((s.setPair pair w).advance len).setPair pair (s.getPair pair)).advance len'
    u.regs = s.regs ∧ u.sp = s.sp := by
  cases pair with
  | sp => exact ⟨rfl, rfl⟩
  | bc | de | hl => simp [State.setPair, State.getPair]

/-- Settles O32: a write of the pair, and writing back what it held. -/
theorem stepPair : Obligations.StepPair := by
  intro pair s
  have hread : ∀ w, ((s.setPair pair w).advance 1).getPair pair = w := fun w => by
    rw [State.getPair_advance, State.getPair_setPair_self]
  refine ⟨⟨_, rfl, ?inc, ?_⟩, ⟨_, rfl, ?dec, ?_⟩⟩
  case inc => rw [hread]; exact BitVec.toNat_add _ _
  case dec => rw [hread, BitVec.toNat_sub, Nat.add_comm]; rfl
  · obtain ⟨hothers, ha, hflags, hpc, hcontrol, henv, hmem⟩ := setPair_advance s pair (s.getPair pair + 1) 1
    refine ⟨hothers, ha, hflags, hpc, hcontrol, henv, hmem, _, rfl, ?_⟩
    rw [hread, BitVec.add_sub_cancel]
    exact s.setPair_back pair _ 1 1
  · obtain ⟨hothers, ha, hflags, hpc, hcontrol, henv, hmem⟩ := setPair_advance s pair (s.getPair pair - 1) 1
    refine ⟨hothers, ha, hflags, hpc, hcontrol, henv, hmem, _, rfl, ?_⟩
    rw [hread, BitVec.sub_add_cancel]
    exact s.setPair_back pair _ 1 1

/-! ### Rotates -/

theorem shiftUp_getLsbD (a : Byte) (bit : Bool) {k : Nat} (hk : k < 8) :
    (shiftUp a bit).getLsbD k = if k = 0 then bit else a.getLsbD (k - 1) := by
  rw [shiftUp, BitVec.getLsbD_append, BitVec.getLsbD_extractLsb']
  by_cases hzero : k = 0
  · simp [hzero]
  · simp [hzero, show k - 1 < 7 by omega]

theorem shiftDown_getLsbD (a : Byte) (bit : Bool) {k : Nat} (hk : k < 8) :
    (shiftDown a bit).getLsbD k = if k = 7 then bit else a.getLsbD (k + 1) := by
  rw [shiftDown, BitVec.getLsbD_append, BitVec.getLsbD_extractLsb']
  by_cases hseven : k = 7
  · simp [hseven]
  · simp [hseven, show k < 7 by omega, Nat.add_comm 1 k]

/-- A rotate writes A, bit by bit, and CY. -/
theorem writesAAndFlags_rotated (s : State) {r : Byte} (cy : Bool) {bits : Nat → Bool} (hr : ∀ k < 8, r.getLsbD k = bits k) :
    WritesAAndFlags s s ((s.rotated r cy).advance 1) 1 (fun r f => (∀ k < 8, r.getLsbD k = bits k) ∧ f = { s.flags with cy := cy }) :=
  (ReadsOnly.refl s).writesAAndFlags r { s.flags with cy := cy } 1 ⟨hr, rfl⟩

/-- Settles O38: each is a shift by one place with the bit that enters. -/
theorem rotates : Obligations.Rotates := by
  intro s a
  refine ⟨rfl, rfl, rfl, rfl, fun p hp => ?_⟩
  simp only [List.mem_cons, List.not_mem_nil, or_false] at hp
  rcases hp with rfl | rfl | rfl | rfl
  · exact ⟨_, rfl, writesAAndFlags_rotated s _ fun _ => shiftUp_getLsbD a _⟩
  · exact ⟨_, rfl, writesAAndFlags_rotated s _ fun _ => shiftDown_getLsbD a _⟩
  · exact ⟨_, rfl, writesAAndFlags_rotated s _ fun _ => shiftUp_getLsbD a _⟩
  · exact ⟨_, rfl, writesAAndFlags_rotated s _ fun _ => shiftDown_getLsbD a _⟩

/-- Shifting up and back down brings back the bits between; the bit that entered is dropped for the one that comes back. -/
theorem shiftDown_shiftUp (a : Byte) (bit : Bool) : shiftDown (shiftUp a bit) (a.getLsbD 7) = a := by
  revert a bit; decide

theorem shiftUp_shiftDown (a : Byte) (bit : Bool) : shiftUp (shiftDown a bit) (a.getLsbD 0) = a := by
  revert a bit; decide

theorem shiftUp_getLsbD_zero (a : Byte) (bit : Bool) : (shiftUp a bit).getLsbD 0 = bit := shiftUp_getLsbD a bit (by decide)

theorem shiftDown_getLsbD_seven (a : Byte) (bit : Bool) : (shiftDown a bit).getLsbD 7 = bit := shiftDown_getLsbD a bit (by decide)

/-- A rotate that brings back the old A leaves every register as it was before the two. -/
theorem State.rotated_back_regs (s : State) {a a' : Byte} (cy cy' : Bool) (ha : a' = s.regs.a) :
    ((((s.rotated a cy).advance 1).rotated a' cy').advance 1).regs = s.regs := by
  subst ha; rfl

/-- One that brings back the old CY as well leaves every flag. -/
theorem State.rotated_back_flags (s : State) (a a' : Byte) (cy : Bool) {cy' : Bool} (hcy : cy' = s.flags.cy) :
    ((((s.rotated a cy).advance 1).rotated a' cy').advance 1).flags = s.flags := by
  subst hcy; rfl

/-- Settles O39: the bit that left comes back, and with it the byte. -/
theorem rotatesUndo : Obligations.RotatesUndo := by
  intro s
  refine ⟨⟨_, _, rfl, rfl, ?ralRar, s.rotated_back_flags _ _ _ (shiftUp_getLsbD_zero s.regs.a s.flags.cy)⟩,
    ⟨_, _, rfl, rfl, ?rarRal, s.rotated_back_flags _ _ _ (shiftDown_getLsbD_seven s.regs.a s.flags.cy)⟩,
    ⟨_, _, rfl, rfl, ?rlcRrc⟩, ⟨_, _, rfl, rfl, ?rrcRlc⟩⟩ <;> refine s.rotated_back_regs _ _ ?_
  case ralRar => exact shiftDown_shiftUp s.regs.a s.flags.cy
  case rarRal => exact shiftUp_shiftDown s.regs.a s.flags.cy
  case rlcRrc =>
    exact (congrArg (shiftDown _) (shiftUp_getLsbD_zero s.regs.a _)).trans (shiftDown_shiftUp s.regs.a _)
  case rrcRlc =>
    exact (congrArg (shiftUp _) (shiftDown_getLsbD_seven s.regs.a _)).trans (shiftUp_shiftDown s.regs.a _)

/-! ### Ports and the interrupt bits -/

/-- Settles O40: IN is a draw, an event and a write of A; OUT is an event. -/
theorem inputOutput : Obligations.InputOutput := by
  intro port s
  refine ⟨⟨_, rfl, fun r hr => ?others, by simp, by simp, by simp, sameControl_advance (by simp [KeepsControl]) 2, fun x => by simp,
    ?history, by simp [State.ioRead], ?inputs, fun v rest hv => ?answer⟩,
    ⟨_, rfl, ⟨rfl, rfl, rfl, rfl, SameControl.goto ⟨rfl, rfl, rfl, rfl, rfl⟩ _⟩, fun _ => rfl, rfl, rfl, rfl⟩⟩
  case others =>
    rw [State.getReg_congr (State.advance_regs _ 2), State.getReg_setReg_other _ _ (List.ne_of_not_mem_cons hr),
      State.getReg_congr (s.ioRead_regs port)]
  case history => simp [State.ioRead, State.setReg]
  case inputs =>
    rcases s.draw_cases with ⟨v, rest, hin, hdraw⟩ | ⟨hin, hdraw⟩ <;> simp [State.ioRead, hin, hdraw]
  case answer => simp [State.ioRead, State.setReg, State.draw, hv]

/-- Settles O42: each sets its bits and moves PC. -/
theorem haltAndInterruptEnable : Obligations.HaltAndInterruptEnable := by
  intro s p hp
  simp only [List.mem_cons, List.not_mem_nil, or_false] at hp
  rcases hp with rfl | rfl | rfl <;>
    exact ⟨_, rfl, rfl, rfl, rfl, rfl, rfl, rfl, rfl, rfl, rfl, rfl, sameEnvironment_refl s, fun _ => rfl⟩

/-! ### The undefined first bytes -/

/-- Settles O43: the policy decides, the constructor gives the byte. -/
theorem undefinedBytesFault : Obligations.UndefinedBytesFault := by
  intro adr s hpolicy p hp
  have hfault : ∀ op t, undefinedFirstByte op s t = .fault (.undefinedOpcode op s.pc) := fun op t => by
    simp only [undefinedFirstByte, hpolicy]
  simp only [List.mem_cons, List.not_mem_nil, or_false] at hp
  rcases hp with rfl | rfl | rfl | rfl | rfl | rfl | rfl | rfl | rfl | rfl | rfl | rfl <;> exact hfault _ _

/-- Settles O44: the policy decides, and the answer is the named instruction's own next state. -/
theorem undefinedBytesAlias : Obligations.UndefinedBytesAlias := by
  intro adr s hpolicy p hp
  have hruns : ∀ op t, undefinedFirstByte op s t = .next t := fun op t => by simp only [undefinedFirstByte, hpolicy]
  simp only [List.mem_cons, List.not_mem_nil, or_false] at hp
  rcases hp with rfl | rfl | rfl | rfl | rfl | rfl | rfl | rfl | rfl | rfl | rfl | rfl <;> exact ⟨_, hruns _ _, rfl⟩

/-! ### Calls, returns and restarts -/

/-- A call stores the address after its `len` bytes below SP and goes to its target (R202). -/
theorem storesTwo_transfers_callTo (s : State) (len target : Word) :
    StoresTwo s (s.callTo len target) (s.sp - 1) (hiByte (s.pc + len)) (s.sp - 2) (loByte (s.pc + len)) ∧
      Transfers s (s.callTo len target) (s.sp - 2) target :=
  ⟨storesTwo_push16 s (s.pc + len), transfers_push16_goto s _ target⟩

/-- A transfer not taken only moves PC past the instruction. -/
theorem transfers_advance (s : State) (len : Word) :
    Transfers s (s.advance len) s.sp (s.pc + len) ∧ SameEnvironment s (s.advance len) ∧ SameMemory s (s.advance len) :=
  ⟨⟨rfl, rfl, rfl, rfl, SameControl.goto (KeepsControl.refl s) _⟩, sameEnvironment_refl s, fun _ => rfl⟩

/-- CALL and the conditional calls, each with whether these flags take it (R32). -/
def callForms (adr : Word) (f : Flags) : List (Instr × Bool) :=
  [(.call adr, true), (.cnz adr, !f.z), (.cz adr, f.z), (.cnc adr, !f.cy), (.cc adr, f.cy), (.cpo adr, !f.p), (.cpe adr, f.p),
    (.cp adr, !f.s), (.cm adr, f.s)]

/-- CALL is the call that is always taken, the others read the one flag their condition names. -/
theorem exec_callForms (adr : Word) (s : State) {p : Instr × Bool} (hp : p ∈ callForms adr s.flags) :
    exec p.1 s = .next (s.callIf p.2 adr) := by
  simp only [callForms, List.mem_cons, List.not_mem_nil, or_false] at hp
  rcases hp with rfl | rfl | rfl | rfl | rfl | rfl | rfl | rfl | rfl <;> rfl

/-- Settles O34: taken, a call; not taken, a move of PC. -/
theorem calls : Obligations.Calls := by
  intro adr s p hp
  refine ⟨_, exec_callForms adr s hp, ?_⟩
  cases p.2
  · exact transfers_advance s 3
  · exact storesTwo_transfers_callTo s 3 adr

/-- RET and the conditional returns, each with whether these flags take it (R32). -/
def returnForms (f : Flags) : List (Instr × Bool) :=
  [(.ret, true), (.rnz, !f.z), (.rz, f.z), (.rnc, !f.cy), (.rc, f.cy), (.rpo, !f.p), (.rpe, f.p), (.rp, !f.s), (.rm, f.s)]

/-- RET is the return that is always taken, the others read the one flag their condition names. -/
theorem exec_returnForms (s : State) {p : Instr × Bool} (hp : p ∈ returnForms s.flags) : exec p.1 s = .next (s.returnIf p.2) := by
  simp only [returnForms, List.mem_cons, List.not_mem_nil, or_false] at hp
  rcases hp with rfl | rfl | rfl | rfl | rfl | rfl | rfl | rfl | rfl <;> rfl

/-- Settles O35: taken, a pop of PC; not taken, a move of PC. -/
theorem returns : Obligations.Returns := by
  intro s p hp
  refine ⟨_, exec_returnForms s hp, fun x => s.returnIf_byteAt p.2 x, ?_⟩
  cases p.2
  · obtain ⟨htransfers, henv, -⟩ := transfers_advance s 1
    exact ⟨htransfers, henv⟩
  · exact ⟨⟨rfl, rfl, s.pop16_regs, s.pop16_flags, sameControl_returnToCaller s⟩, sameEnvironment_refl _⟩

/-- Settles O36: a call of one byte to `8 * n`. -/
theorem restart : Obligations.Restart := by
  intro n s
  rw [← restartAddress_eq]
  exact ⟨rfl, _, rfl, storesTwo_transfers_callTo s 1 (restartAddress n)⟩

/-! ### Fixed facts of the opcode table -/

/-- Settles O9: the length of each of the 256 first bytes, evaluated. -/
theorem instructionLengths : Obligations.InstructionLengths := by
  unfold Obligations.InstructionLengths
  decide +kernel

/-- Settles O10: each of the fifteen words, evaluated. -/
theorem sampleWords : Obligations.SampleWords := by
  unfold Obligations.SampleWords
  decide +kernel

end Sys2Proof.Machine
end

section
/-! SUPPORT. The assembler's mnemonics and operand forms (spec/30_encoding.md R101 to R107). -/

namespace Sys2Proof.Machine

/-! ### Operands -/

theorem regNamed_regName (r : Reg) : regNamed (regName r) = some r := by cases r <;> rfl

theorem pairNamed_pairName (p : RegPair) : pairNamed (pairName p) = some p := by cases p <;> rfl

theorem regNamed_M : regNamed "M" = none := rfl

/-- A value below a bound fits. -/
theorem bind_fits {r : Except AsmError Nat} {n bound : Nat} (hr : r = .ok n) (hn : n < bound) : r.bind (fits bound) = .ok n := by
  rw [hr]
  exact if_pos hn

/-- The mnemonic with these operands stands for the instruction. -/
def Assembles (value : AsmExp → Except AsmError Nat) (m : String) (ops : List AsmExp) (i : Instr) : Prop :=
  instrNamed value m ops = .ok i

section
variable {value : AsmExp → Except AsmError Nat} {m : String}

theorem Assembles.movRR (hm : mnemonicTable.lookup m = some .move) (r r2 : Reg) :
    Assembles value m [.name (regName r), .name (regName r2)] (.movRR r r2) := by
  simp only [Assembles, instrNamed, hm, regNamed_regName]

theorem Assembles.movRM (hm : mnemonicTable.lookup m = some .move) (r : Reg) :
    Assembles value m [.name (regName r), .name "M"] (.movRM r) := by
  simp only [Assembles, instrNamed, hm, regNamed_regName, regNamed_M, if_true]

theorem Assembles.movMR (hm : mnemonicTable.lookup m = some .move) (r : Reg) :
    Assembles value m [.name "M", .name (regName r)] (.movMR r) := by
  simp only [Assembles, instrNamed, hm, regNamed_regName, regNamed_M, if_true]

theorem Assembles.mviR (hm : mnemonicTable.lookup m = some .moveImmediate) (r : Reg) {e : AsmExp} {imm : Byte}
    (he : value e = .ok imm.toNat) : Assembles value m [.name (regName r), e] (.mviR r imm) := by
  simp only [Assembles, instrNamed, hm, regNamed_regName, bind_fits he imm.isLt, Except.map, BitVec.ofNat_toNat, BitVec.setWidth_eq]

theorem Assembles.mviM (hm : mnemonicTable.lookup m = some .moveImmediate) {e : AsmExp} {imm : Byte}
    (he : value e = .ok imm.toNat) : Assembles value m [.name "M", e] (.mviM imm) := by
  simp only [Assembles, instrNamed, hm, regNamed_M, if_true, bind_fits he imm.isLt, Except.map, BitVec.ofNat_toNat, BitVec.setWidth_eq]

theorem Assembles.onReg {onReg : Reg → Instr} {onM : Instr} (hm : mnemonicTable.lookup m = some (.regOrM onReg onM)) (r : Reg) :
    Assembles value m [.name (regName r)] (onReg r) := by
  simp only [Assembles, instrNamed, hm, regNamed_regName]

theorem Assembles.onM {onReg : Reg → Instr} {onM : Instr} (hm : mnemonicTable.lookup m = some (.regOrM onReg onM)) :
    Assembles value m [.name "M"] onM := by
  simp only [Assembles, instrNamed, hm, regNamed_M, if_true]

theorem Assembles.data8 {build : Byte → Instr} (hm : mnemonicTable.lookup m = some (.data8 build)) {e : AsmExp} {imm : Byte}
    (he : value e = .ok imm.toNat) : Assembles value m [e] (build imm) := by
  simp only [Assembles, instrNamed, hm, bind_fits he imm.isLt, Except.map, BitVec.ofNat_toNat, BitVec.setWidth_eq]

theorem Assembles.port {build : Byte → Instr} (hm : mnemonicTable.lookup m = some (.port build)) {e : AsmExp} {imm : Byte}
    (he : value e = .ok imm.toNat) : Assembles value m [e] (build imm) := by
  simp only [Assembles, instrNamed, hm, bind_fits he imm.isLt, Except.map, BitVec.ofNat_toNat, BitVec.setWidth_eq]

theorem Assembles.address {build : Word → Instr} (hm : mnemonicTable.lookup m = some (.address build)) {e : AsmExp} {adr : Word}
    (he : value e = .ok adr.toNat) : Assembles value m [e] (build adr) := by
  simp only [Assembles, instrNamed, hm, bind_fits he adr.isLt, Except.map, BitVec.ofNat_toNat, BitVec.setWidth_eq]

theorem Assembles.lxi (hm : mnemonicTable.lookup m = some .loadPair) (p : RegPair) {e : AsmExp} {w : Word}
    (he : value e = .ok w.toNat) : Assembles value m [.name (pairName p), e] (.lxi p w) := by
  simp only [Assembles, instrNamed, hm, pairNamed_pairName, bind_fits he w.isLt, Except.map, BitVec.ofNat_toNat, BitVec.setWidth_eq]

theorem Assembles.pair {build : RegPair → Instr} (hm : mnemonicTable.lookup m = some (.pair build)) (p : RegPair) :
    Assembles value m [.name (pairName p)] (build p) := by
  simp only [Assembles, instrNamed, hm, pairNamed_pairName]

theorem Assembles.bcOrDe {build : RegPair → Instr} (hm : mnemonicTable.lookup m = some (.bcOrDe build)) {p : RegPair}
    (hp : p.addressesMemory = true) : Assembles value m [.name (pairName p)] (build p) := by
  simp only [Assembles, instrNamed, hm, pairNamed_pairName, hp, if_true]

theorem Assembles.stacked {build : RegPair → Instr} {psw : Instr} (hm : mnemonicTable.lookup m = some (.stacked build psw))
    {p : RegPair} (hp : p.stackable = true) : Assembles value m [.name (pairName p)] (build p) := by
  simp only [Assembles, instrNamed, hm, pairNamed_pairName, hp, if_true]

theorem Assembles.psw {build : RegPair → Instr} {psw : Instr} (hm : mnemonicTable.lookup m = some (.stacked build psw)) :
    Assembles value m [.name "PSW"] psw := by
  have hname : pairNamed "PSW" = none := rfl
  simp only [Assembles, instrNamed, hm, hname, if_true]

theorem Assembles.rst (hm : mnemonicTable.lookup m = some .restart) {e : AsmExp} {n : BitVec 3} (he : value e = .ok n.toNat) :
    Assembles value m [e] (.rst n) := by
  simp only [Assembles, instrNamed, hm, bind_fits he n.isLt, Except.map, BitVec.ofNat_toNat, BitVec.setWidth_eq]

theorem Assembles.bare {i : Instr} (hm : mnemonicTable.lookup m = some (.bare i)) : Assembles value m [] i := by
  simp only [Assembles, instrNamed, hm]

/-- A list of mnemonics with operands, each with the instruction it stands for. -/
def AllAssemble (value : AsmExp → Except AsmError Nat) (forms : List (String × List AsmExp × Instr)) : Prop :=
  ∀ p ∈ forms, instrNamed value p.1 p.2.1 = .ok p.2.2

theorem AllAssemble.nil : AllAssemble value [] := fun _ h => absurd h List.not_mem_nil

theorem AllAssemble.cons {ops : List AsmExp} {i : Instr} {forms : List (String × List AsmExp × Instr)}
    (h : Assembles value m ops i) (hforms : AllAssemble value forms) : AllAssemble value ((m, ops, i) :: forms) :=
  List.forall_mem_cons.mpr ⟨h, hforms⟩

theorem AllAssemble.append {forms forms' : List (String × List AsmExp × Instr)} (h : AllAssemble value forms)
    (h' : AllAssemble value forms') : AllAssemble value (forms ++ forms') :=
  List.forall_mem_append.mpr ⟨h, h'⟩

end

/-! ### What is assembled is an instruction -/

/-- An operand form builds well-formed instructions from the operands it admits. -/
def OperandForm.Sound : OperandForm → Prop
  | .move | .moveImmediate | .loadPair | .restart => True
  | .regOrM onReg onM => (∀ r, (onReg r).wellFormed = true) ∧ onM.wellFormed = true
  | .data8 build | .port build => ∀ b, (build b).wellFormed = true
  | .pair build => ∀ p, (build p).wellFormed = true
  | .bcOrDe build => ∀ p, p.addressesMemory = true → (build p).wellFormed = true
  | .stacked build psw => (∀ p, p.stackable = true → (build p).wellFormed = true) ∧ psw.wellFormed = true
  | .address build => ∀ w, (build w).wellFormed = true
  | .bare i => i.wellFormed = true

theorem mnemonicTable_sound : ∀ e ∈ mnemonicTable, e.2.Sound := by
  simp only [mnemonicTable, List.forall_mem_cons, OperandForm.Sound, Instr.wellFormed, imp_self, implies_true, and_self,
    List.not_mem_nil, false_implies]

/-- A mnemonic's form is in the table. -/
theorem sound_of_lookup {m : String} {form : OperandForm} (h : mnemonicTable.lookup m = some form) : form.Sound := by
  obtain ⟨l, r, htable, -⟩ := List.lookup_eq_some_iff.mp h
  exact mnemonicTable_sound (m, form) (htable ▸ List.mem_append_cons_self)

/-- What an answer of the assembler holds, if it is an instruction, is well-formed. -/
def AnswersWellFormed (x : Except AsmError Instr) : Prop := ∀ i, x = .ok i → i.wellFormed = true

theorem AnswersWellFormed.error (e : AsmError) : AnswersWellFormed (.error e) := nofun

theorem AnswersWellFormed.ok {i : Instr} (h : i.wellFormed = true) : AnswersWellFormed (.ok i) := by
  intro j hj
  cases hj
  exact h

theorem AnswersWellFormed.map {k : Nat → Instr} (h : ∀ n, (k n).wellFormed = true) (x : Except AsmError Nat) :
    AnswersWellFormed (x.map k) := by
  cases x with
  | error e => exact .error e
  | ok n => exact .ok (h n)

theorem AnswersWellFormed.ite {c : Prop} [Decidable c] {x : Except AsmError Instr} (h : c → AnswersWellFormed x) (e : AsmError) :
    AnswersWellFormed (if c then x else .error e) := by
  split
  · rename_i hc; exact h hc
  · exact .error e

/-- Whatever a mnemonic and its operands assemble to is well-formed: operand form by operand form. -/
theorem instrNamed_answersWellFormed (value : AsmExp → Except AsmError Nat) (m : String) (ops : List AsmExp) :
    AnswersWellFormed (instrNamed value m ops) := by
  cases hform : mnemonicTable.lookup m with
  | none => simp only [instrNamed, hform]; exact .error _
  | some form =>
    have hsound := sound_of_lookup hform
    simp only [instrNamed, hform]
    split
    case h_1 =>
      split
      · exact .ok rfl
      · exact .ite (fun _ => .ok rfl) _
      · exact .ite (fun _ => .ok rfl) _
      · exact .error _
    case h_2 =>
      split
      · exact .map (fun _ => rfl) _
      · exact .ite (fun _ => .map (fun _ => rfl) _) _
    case h_3 =>
      split
      · exact .ok (hsound.1 _)
      · exact .ite (fun _ => .ok hsound.2) _
    case h_5 =>
      split
      · exact .map (fun _ => rfl) _
      · exact .error _
    case h_6 =>
      split
      · exact .ok (hsound _)
      · exact .error _
    case h_7 =>
      split
      · exact .ite (fun hpair => .ok (hsound _ hpair)) _
      · exact .error _
    case h_8 =>
      split
      · exact .ite (fun hpair => .ok (hsound.1 _ hpair)) _
      · exact .ite (fun _ => .ok hsound.2) _
    case h_4 | h_9 | h_10 => exact .map (fun _ => hsound _) _
    case h_11 => exact .map (fun _ => rfl) _
    case h_12 => exact .ok hsound
    case h_13 => exact .error _

/-- Settles O60: the forms of the statement one by one, each by the lemma of its operand form and a look-up of its mnemonic; what is
assembled is well-formed, so `decodeEncode` reads it back. -/
theorem assembledDecodes : Obligations.AssembledDecodes := by
  refine ⟨?forms, by decide +kernel, by decide +kernel, rfl, ?decodes⟩
  case forms =>
    intro value d8 a16 e3 imm adr n r r2 rp bd bp hd8 ha16 he3 hbd hbp reg pair bcDe stack mem
    replace hbd := addressesMemory_of_bc_or_de hbd
    replace hbp := stackable_of_ne_sp hbp
    dsimp only [reg, pair, bcDe, stack, mem]
    refine AllAssemble.append (value := value) ?transfersAndArithmetic ?controlAndOther
    case transfersAndArithmetic =>
      exact
        .cons (.movRR rfl r r2) <| .cons (.movRM rfl r) <| .cons (.movMR rfl r) <| .cons (.mviR rfl r hd8) <|
        .cons (.mviM rfl hd8) <| .cons (.address rfl ha16) <| .cons (.address rfl ha16) <| .cons (.bcOrDe rfl hbd) <|
        .cons (.bcOrDe rfl hbd) <| .cons (.address rfl ha16) <| .cons (.address rfl ha16) <| .cons (.lxi rfl rp ha16) <|
        .cons (.stacked rfl hbp) <| .cons (.psw rfl) <| .cons (.stacked rfl hbp) <| .cons (.psw rfl) <| .cons (.bare rfl) <|
        .cons (.bare rfl) <| .cons (.bare rfl) <| .cons (.bare rfl) <| .cons (.onReg rfl r) <| .cons (.onM rfl) <|
        .cons (.onReg rfl r) <| .cons (.onM rfl) <| .cons (.onReg rfl r) <| .cons (.onM rfl) <| .cons (.onReg rfl r) <|
        .cons (.onM rfl) <| .cons (.onReg rfl r) <| .cons (.onM rfl) <| .cons (.onReg rfl r) <| .cons (.onM rfl) <|
        .cons (.onReg rfl r) <| .cons (.onM rfl) <| .cons (.onReg rfl r) <| .cons (.onM rfl) <| .cons (.onReg rfl r) <|
        .cons (.onM rfl) <| .cons (.onReg rfl r) <| .cons (.onM rfl) <| .cons (.data8 rfl hd8) <| .cons (.data8 rfl hd8) <|
        .cons (.data8 rfl hd8) <| .cons (.data8 rfl hd8) <| .cons (.data8 rfl hd8) <| .cons (.data8 rfl hd8) <|
        .cons (.data8 rfl hd8) <| .cons (.data8 rfl hd8) <| .cons (.bare rfl) <| .cons (.pair rfl rp) <|
        .cons (.pair rfl rp) <| .cons (.pair rfl rp) <| .nil
    case controlAndOther =>
      exact
        .cons (.address rfl ha16) <| .cons (.address rfl ha16) <| .cons (.address rfl ha16) <| .cons (.address rfl ha16) <|
        .cons (.address rfl ha16) <| .cons (.address rfl ha16) <| .cons (.address rfl ha16) <| .cons (.address rfl ha16) <|
        .cons (.address rfl ha16) <| .cons (.address rfl ha16) <| .cons (.address rfl ha16) <| .cons (.address rfl ha16) <|
        .cons (.address rfl ha16) <| .cons (.address rfl ha16) <| .cons (.address rfl ha16) <| .cons (.address rfl ha16) <|
        .cons (.address rfl ha16) <| .cons (.address rfl ha16) <| .cons (.bare rfl) <| .cons (.bare rfl) <|
        .cons (.bare rfl) <| .cons (.bare rfl) <| .cons (.bare rfl) <| .cons (.bare rfl) <| .cons (.bare rfl) <|
        .cons (.bare rfl) <| .cons (.bare rfl) <| .cons (.bare rfl) <| .cons (.bare rfl) <| .cons (.bare rfl) <|
        .cons (.bare rfl) <| .cons (.port rfl hd8) <| .cons (.port rfl hd8) <| .cons (.bare rfl) <| .cons (.bare rfl) <|
        .cons (.bare rfl) <| .cons (.bare rfl) <| .cons (.bare rfl) <| .cons (.bare rfl) <| .cons (.bare rfl) <|
        .cons (.rst rfl he3) <| .nil
  case decodes =>
    intro value m ops i h
    rw [← List.append_nil (encode i)]
    exact decodeEncode i [] (instrNamed_answersWellFormed value m ops i h)

end Sys2Proof.Machine
end
